-- ==== Sys2Proof/Word.lean ====
section
/-! DEFINITION. The words of the two interfaces: the management port and the lanes both move 32-bit words
(10_formats_and_signals.md). Keys, addresses, tags and flow hashes are bit vectors of the widths the manual gives. -/

namespace Sys2Proof

/-- One byte: an opcode of the management port, a lane request tag. -/
abbrev Byte := BitVec 8

/-- One 32-bit word of the management port (R163) or of a lane (R188). -/
abbrev Word := BitVec 32

end Sys2Proof
end

