-- ==== Sys2Proof/Syntax.lean ====
section
/-! DEFINITION. The commands: one constructor per row of spec/opcode_table.json, in the table's order.

A row is one whole and indivisible step of the part (95_what_each_step_holds.md). Three kinds of row stand here:
* what the outside does: transactions of the management port, signals and messages on a lane, RESET# and supplies;
* the work phase of a host command. It carries no operand: its operands are the parameter words that WORD_WRITE
  delivered and that the Command Unit holds (R171); a second copy here could only disagree with them
  (notes/assumptions/3.md);
* the parts' own steps: a claim taken, a report taken, a grant, a send ended, a timer's expiry. -/

namespace Sys2Proof

/-- What was lost on a lane's line (R91: alignment lost while UP is taken as signal lost). -/
inductive LossCause where
  /-- No signal is on the line any more. -/
  | signal
  /-- The signal is still there, the word boundaries are lost. -/
  | alignment
  deriving DecidableEq, Repr

/-- The three supplies the internal monitor watches (R200). -/
inductive Rail where
  | vdd | vddio | vddl
  deriving DecidableEq, Repr

/-- The state a PORT message reports (R190). -/
inductive ReportedState where
  | live | dead
  deriving DecidableEq, Repr

/-- The commands of the block: the rows of spec/opcode_table.json. -/
inductive Instr where
  /-- A completed WORD WRITE transaction delivers the word `w` (R163, R166, R167, R169). -/
  | wordWrite (w : Word)
  /-- A completed WORD READ transaction (R172, R173). -/
  | wordRead
  /-- A completed ABORT transaction (R174, R175). -/
  | abort
  /-- The CU hands back the answer it has formed (R170). -/
  | workPhaseEnd
  | domainSet
  | domainRead
  | routeAdd
  | routeChange
  | routeDrop
  | routeRead
  | routeFind
  | exitCreate
  | exitChange
  | exitEnable
  | exitDisable
  | exitDelete
  | exitRead
  | setCreate
  | setChange
  | setDelete
  | setRead
  | memberAdd
  | memberRemove
  | memberWeight
  | setRefill
  | mapRead
  | portForce
  | portRead
  | laneEnable
  | laneDisable
  | laneRead
  | laneWeight
  | probe
  | jobStart
  | jobCancel
  | jobRead
  | collect
  | attentionMask
  | identify
  | setParameters
  | readParameters
  | readSpace
  | restart
  /-- Every block has completed its RESTART part and the holds end (R184). -/
  | restartComplete
  /-- The lane's receiver detects a signal (R91). -/
  | signalDetected (lane : Fin 4)
  /-- The lane's receiver has found the word boundaries (R91). -/
  | alignmentComplete (lane : Fin 4)
  /-- The lane's receiver loses the signal or the alignment (R91). -/
  | signalLost (lane : Fin 4) (cause : LossCause)
  /-- A LOOKUP-N arrives that passes its check and is not malformed; its fields are those of R190. -/
  | lookupN (lane : Fin 4) (tag : Byte) (domain : Fin 16) (mark : Bool) (hash : BitVec 16) (key : BitVec 32)
  /-- A LOOKUP-W arrives that passes its check and is not malformed; its fields are those of R190. -/
  | lookupW (lane : Fin 4) (tag : Byte) (domain : Fin 16) (mark : Bool) (hash : BitVec 16) (key : BitVec 128)
  /-- A PORT message arrives that passes its check and is not malformed (R99). -/
  | port (lane : Fin 4) (port : Fin 64) (state : ReportedState)
  /-- A message arrives that fails its length or CRC check; `words` are the data words received (R95). -/
  | checkFailure (lane : Fin 4) (words : List Word)
  /-- A message arrives that passes its check and is malformed; `words` are its words (R96). -/
  | malformedMessage (lane : Fin 4) (words : List Word)
  /-- The lane's CREDIT send ends (R100). -/
  | creditSent (lane : Fin 4)
  /-- The lane's RESULT send ends (R100). -/
  | resultSent (lane : Fin 4)
  /-- PMON takes the report that arrived first (R72). -/
  | reportTaken
  /-- The port's hold-down timer reaches its time of expiry and PMON takes the expiry (R75). -/
  | holdDownExpiry (port : Fin 64)
  /-- The PT takes the visit claim of the port's failover pass (R81). -/
  | visitClaim (port : Fin 64)
  /-- The lane arbiter makes a grant (R106). -/
  | grant
  /-- The RS takes the lookup claim (R116). -/
  | lookupClaim
  /-- The PT takes the resolution claim (R65, R119). -/
  | resolutionClaim
  /-- The RS takes the step claim of a SURVEY job (R133). -/
  | stepClaim
  /-- The PT takes the refill claim of a REFILL job (R139). -/
  | refillClaim
  /-- The PT takes the pin claim of the slot's ending job (R144). -/
  | pinClaim (slot : Fin 4)
  /-- RESET# is driven low and held for `lowNs` nanoseconds (R200). -/
  | hardwareReset (lowNs : Nat)
  /-- The supply `rail` falls below its valid threshold (R200). -/
  | supplyInvalid (rail : Rail)
  /-- The rising edge of RESET# (R186, R200). -/
  | resetRelease
  /-- All three supplies become valid (R200). -/
  | supplyValid
  /-- Every block has reached its hardware-reset values (R186). -/
  | startupClearingEnd
  deriving DecidableEq, Repr

end Sys2Proof
end

