-- ==== Sys2Proof/Decode.lean ====
section
/-! DEFINITION. From the wires to the commands. No row of spec/opcode_table.json gives bits, so `decodeTableWord`
answers none on every word. What the manual does lay out as bits is read here: the SPI transactions of the management
port (R163, R192) and the messages of a lane (R188 to R190), each as the row's command it stands for. -/

namespace Sys2Proof

/-- The command a word of the opcode table spells: the table gives no row bits, so none. -/
def decodeTableWord (_nbits _w : Nat) : Option Instr := none

/-- Bits `hi` to `lo` of a word, as the number they spell (10_formats_and_signals.md: "a field given as 31–28"). -/
def bits (w : Word) (hi lo : Nat) : Nat := (w.toNat >>> lo) % 2 ^ (hi - lo + 1)

/-! ## The management port's transactions -/

/-- The four opcodes of R192. -/
inductive SpiOpcode where
  | statusRead | wordWrite | wordRead | abort
  deriving DecidableEq, Repr

/-- The opcode byte's transaction, if it is one of the four (R192). -/
def spiOpcode (b : Byte) : Option SpiOpcode :=
  if b = 0x31#8 then some .statusRead
  else if b = 0x2B#8 then some .wordWrite
  else if b = 0x4C#8 then some .wordRead
  else if b = 0x7D#8 then some .abort
  else none

/-- What a transaction of `clocks` bit clocks delivers to the MP when chip select rises (R163): nothing before the
40th clock, nothing for an opcode that is not one of the four, and nothing for STATUS READ, which changes no state
(its word is `Machine.statusWord`). Clocks beyond the 40th are ignored. -/
def spiTransaction (opcode : Byte) (clocks : Nat) (w : Word) : Option Instr :=
  if clocks < 40 then none
  else match spiOpcode opcode with
    | some .wordWrite => some (.wordWrite w)
    | some .wordRead => some .wordRead
    | some .abort => some .abort
    | some .statusRead => none
    | none => none

/-- The number that bits shifted most significant first spell, the first bit shifted at the head (R188, R192). -/
def msbFirst (sent : List Bool) : Nat := sent.foldl (fun n b => 2 * n + b.toNat) 0

/-- What a transaction delivers, from the bits sampled on SDI at the rising edges of SCK while CS# was low: the opcode
byte, then the word, each most significant bit first (R192). -/
def spiReceive (sdi : List Bool) : Option Instr :=
  spiTransaction (BitVec.ofNat 8 (msbFirst (sdi.take 8))) sdi.length (BitVec.ofNat 32 (msbFirst ((sdi.drop 8).take 32)))

/-! ## The check word -/

/-- One bit of the CRC-16 register (R189, step 3). -/
def crcBit (reg : BitVec 16) (bit : Bool) : BitVec 16 :=
  if reg.msb != bit then (reg <<< 1) ^^^ 0x1021#16 else reg <<< 1

/-- One word of the CRC-16 register, from bit 31 to bit 0 (R189, step 2). -/
def crcWord (reg : BitVec 16) (w : Word) : BitVec 16 :=
  (List.range 32).foldl (fun r i => crcBit r (w.getLsbD (31 - i))) reg

/-- The check value over the data words of a message (R189). -/
def crc16 (ws : List Word) : BitVec 16 := ws.foldl crcWord 0xFFFF#16

/-- The message with its check word appended, bits 31–16 zero (R189). -/
def withCheckWord (ws : List Word) : List Word := ws ++ [BitVec.zeroExtend 32 (crc16 ws)]

/-- A message passes its check when it has 2 to 7 words and the CRC of all but the last equals bits 15–0 of the last
(R94, R189). -/
def passesCheck (ws : List Word) : Bool :=
  2 ≤ ws.length && ws.length ≤ 7 &&
    (crc16 ws.dropLast).toNat == bits (ws.getLastD 0#32) 15 0

/-! ## Classification of a message that passes its check -/

/-- The kind code, bits 31–28 of the first word (R190). -/
def messageKind (ws : List Word) : Nat := bits (ws.headD 0#32) 31 28

/-- The family code of a LOOKUP, and the reported-state code of a PORT message: bits 27–26 of the first word (R190). -/
def messageCode (ws : List Word) : Nat := bits (ws.headD 0#32) 27 26

/-- The request tag, bits 7–0 of the first word for every message of kind 1h (R190). -/
def messageTag (ws : List Word) : Byte := BitVec.ofNat 8 (bits (ws.headD 0#32) 7 0)

/-- A message that passes its check is malformed in the cases of R96, as R190 lists the codes. -/
def isMalformed (ws : List Word) : Bool :=
  if messageKind ws = 1 then
    !((messageCode ws == 1 && ws.length == 4) || (messageCode ws == 2 && ws.length == 7))
  else if messageKind ws = 2 then
    !((messageCode ws == 1 || messageCode ws == 2) && ws.length == 2)
  else true

/-- The domain field, bits 19–16 of the first word (R190). -/
def messageDomain (ws : List Word) : Fin 16 := Fin.ofNat 16 (bits (ws.headD 0#32) 19 16)

/-- The mark flag, bit 25 of the first word (R190). -/
def messageMark (ws : List Word) : Bool := bits (ws.headD 0#32) 25 25 == 1

/-- The flow hash, bits 15–0 of the second word (R190). -/
def messageHash (ws : List Word) : BitVec 16 := BitVec.ofNat 16 (bits (ws.getD 1 0#32) 15 0)

/-- A WIDE key of four words, the most significant word first (R190). -/
def wideKey (a b c d : Word) : BitVec 128 :=
  BitVec.ofNat 128 (a.toNat * 2 ^ 96 + b.toNat * 2 ^ 64 + c.toNat * 2 ^ 32 + d.toNat)

/-- The row's command that a message arriving on a lane is (R94, R96, R190). -/
def receiveMessage (lane : Fin 4) (ws : List Word) : Instr :=
  if !passesCheck ws then .checkFailure lane ws
  else if isMalformed ws then .malformedMessage lane ws
  else if messageKind ws = 2 then
    .port lane (Fin.ofNat 64 (bits (ws.headD 0#32) 5 0)) (if messageCode ws = 1 then .live else .dead)
  else if messageCode ws = 1 then
    .lookupN lane (messageTag ws) (messageDomain ws) (messageMark ws) (messageHash ws) (ws.getD 2 0#32)
  else
    .lookupW lane (messageTag ws) (messageDomain ws) (messageMark ws) (messageHash ws)
      (wideKey (ws.getD 2 0#32) (ws.getD 3 0#32) (ws.getD 4 0#32) (ws.getD 5 0#32))

/-! ## Framing -/

/-- The symbols of an aligned line (R188). -/
inductive Symbol where
  | data (w : Word) | startMarker | endMarker
  deriving DecidableEq, Repr

/-- A word's bits in the order in which a lane or SDO carries them: most significant bit first (R188, R192). -/
def wordBits (w : Word) : List Bool := (List.range 32).map w.getMsbD

/-- What the transmitter sends for a message: a start marker, the data words with the check word last, and an end marker
(R188). -/
def frame (ws : List Word) : List Symbol := .startMarker :: (ws.map .data ++ [.endMarker])

/-- What the transmitter has sent of a message that is abandoned after `words` of its data words: there is no end marker
(R93, R188). -/
def abandonedFrame (ws : List Word) (words : Nat) : List Symbol := .startMarker :: (ws.take words).map .data

/-- The receiver's framing (R188), from the message that is open, if one is: the messages that arrive, in order, and
what is open afterwards. Data with no message open is discarded, an end marker with none open is ignored, and a start
marker closes the message that is open. -/
def receiveSymbols (opened : Option (List Word)) : List Symbol → List (List Word) × Option (List Word)
  | [] => ([], opened)
  | .data w :: rest => receiveSymbols (opened.map (· ++ [w])) rest
  | .startMarker :: rest =>
    let (ms, o) := receiveSymbols (some []) rest
    (opened.toList ++ ms, o)
  | .endMarker :: rest =>
    let (ms, o) := receiveSymbols none rest
    (opened.toList ++ ms, o)

end Sys2Proof
end

