-- ==== Sys2Proof/Config.lean ====
section
/-! DEFINITION. The numbers that hold in every chapter (00_scope.md, "Numbers") and the default settings.
The manual leaves no result of a command undefined, so no free value stands here (notes/assumptions/2.md). -/

namespace Sys2Proof.Config

/-- Storage units shared by the routes (R8). -/
abbrev storageUnits : Nat := 65536
/-- Greatest exit ID (R28). -/
abbrev maxExitId : Nat := 8191
/-- Greatest path set ID (R29). -/
abbrev maxSetId : Nat := 4095
/-- Members a path set may hold (R30). -/
abbrev maxMembers : Nat := 16
/-- Buckets of a path set's map (R29). -/
abbrev buckets : Nat := 64
/-- User-list entries one EXIT READ answers (R43). -/
abbrev usersPerRead : Nat := 40
/-- Default hold-down time in milliseconds (R87). -/
abbrev defaultHoldDown : Nat := 500
/-- Greatest hold-down time in milliseconds (R87). -/
abbrev maxHoldDown : Nat := 10000
/-- Default high watermark in storage units (R26). -/
abbrev defaultHigh : Nat := 61440
/-- Default low watermark in storage units (R26). -/
abbrev defaultLow : Nat := 57344
/-- Entries of a lane's request queue (R97). -/
abbrev queueLimit : Nat := 32
/-- Credits of a lane, and PORT reports it may have pending (R90). -/
abbrev creditLimit : Nat := 32
/-- Lookup claims that may pass a waiting step claim (R17). -/
abbrev fairnessLimit : Nat := 16
/-- Greatest value of a 32-bit saturating count. -/
abbrev count32 : Nat := 4294967295
/-- Greatest value of a 16-bit saturating count. -/
abbrev count16 : Nat := 65535
/-- Greatest change count of a PORT or LANE record (R150). -/
abbrev count8 : Nat := 255
/-- Shortest low level of RESET# that is a hardware reset, in nanoseconds (R200). -/
abbrev resetFilterNs : Nat := 1000

end Sys2Proof.Config
end

