-- ==== Sys2Proof/Machine/State.lean ====
section
/-! DEFINITION. The state of the RWT-240: one record for each block of 00_scope.md's block diagram, the device's pins
and supplies, and the queue of the commands that are waiting. Everything is plain data. A table whose records are FREE
or absent by default (routes, exits, path sets) is the list of what is there, in its order. -/

namespace Sys2Proof.Machine

/-- Reasons the machine stops with a fault. None: no rule of the manual stops the device, every command and every
event has an effect or none (R163, R166, R174, R177), so no constructor is raised by anybody. -/
inductive Fault where
  deriving DecidableEq, Repr

/-- Reasons a step is refused. -/
inductive Refusal where
  /-- Raised by `exec` for a command whose meaning is not written. Safe: the model stops where the device goes on.
  No arm raises it any more. -/
  | notModelled (mnemonic : String)
  deriving DecidableEq, Repr

/-! ## Route Store (chapter 1) -/

/-- The width of a key (00_scope.md). -/
inductive Family where
  | narrow | wide
  deriving DecidableEq, Repr

/-- A key of either family (R2). -/
inductive Key where
  | narrow (k : BitVec 32)
  | wide (k : BitVec 128)
  deriving DecidableEq, Repr

/-- A route's identity: domain, family (the key's), key and prefix length (R1). -/
structure Identity where
  domain : Fin 16
  key : Key
  len : Nat
  deriving DecidableEq, Repr

/-- What a route leads to (R1): a path set ID 0–4095, an exit ID 0–8191, DISCARD or CONTROL. -/
inductive Target where
  | pathSet (id : Nat)
  | exit (id : Nat)
  | discard
  | control
  deriving DecidableEq, Repr

/-- STATIC or LEARNED (R1). -/
inductive RouteClass where
  | static | learned
  deriving DecidableEq, Repr

/-- The route record (R1). -/
structure Route where
  ident : Identity
  target : Target
  cls : RouteClass
  tag : BitVec 16
  mark : Bool
  hits : Nat
  deriving DecidableEq, Repr

/-- A miss verdict or an empty verdict (R13, R29). -/
inductive DropVerdict where
  | discard | control
  deriving DecidableEq, Repr

/-- The domain record (R13). -/
structure Domain where
  enabled : Bool
  miss : DropVerdict
  narrowCount : Nat
  wideCount : Nat
  deriving DecidableEq, Repr

/-- The Route Store (R26): the routes in table order (R4), the domains, units in use, the watermarks, the arm state
and the fairness count. -/
structure RouteStore where
  routes : List Route
  domains : Vector Domain 16
  units : Nat
  high : Nat
  low : Nat
  armed : Bool
  fairness : Nat
  deriving DecidableEq, Repr

/-! ## Path Table (chapters 2 and 3) -/

/-- An ACTIVE exit record (R28). -/
structure Exit where
  id : Nat
  enabled : Bool
  port : Fin 64
  addr : BitVec 48
  vlan : Option Nat
  mtu : Nat
  routeRefs : Nat
  memberRefs : Nat
  pinRefs : Nat
  /-- The user list: set IDs, ascending (R33). -/
  users : List Nat
  deriving DecidableEq, Repr

/-- A member of a path set: exit, weight and recorded state (R29). -/
structure Member where
  exit : Nat
  weight : Nat
  up : Bool
  deriving DecidableEq, Repr

/-- EAGER or HOLD (R29). -/
inductive RejoinPolicy where
  | eager | hold
  deriving DecidableEq, Repr

/-- An ACTIVE path set record (R29). Each bucket of the map names a member by its exit ID, or is EMPTY (none). -/
structure PathSet where
  id : Nat
  members : List Member
  map : List (Option Nat)
  rejoin : RejoinPolicy
  emptyVerdict : DropVerdict
  backup : Option Nat
  routeRefs : Nat
  backupRefs : Nat
  pinRefs : Nat
  deriving DecidableEq, Repr

/-- The claims that wait at a table, in the order they were presented; claims presented at one moment stand in one group
(R36, R84). -/
abbrev ClaimLine (α : Type) := List (List α)

/-- A claim of another block that waits at the Path Table (R36). -/
inductive PtClaim where
  /-- PMON's visit claim for the pass of `port`. -/
  | visit (port : Fin 64)
  /-- The JE's refill claim for the job in `slot`. -/
  | refill (slot : Fin 4)
  /-- The JE's pin claim for the ending job in `slot`. -/
  | pin (slot : Fin 4)
  /-- The SU's resolution claim. -/
  | resolution
  /-- The CU's command claim. -/
  | command
  /-- The RS's reference claim, within the claim that it has in progress on the route table (R18). -/
  | reference
  deriving DecidableEq, Repr

/-- A visit claim that is TAKEN and not yet finished (R82): its port and the cursor its pass had when it was taken.
`stale` says that an effective change of the port has restarted the pass since, so that PMON discards what the claim
returns. -/
structure Visit where
  port : Fin 64
  cursor : Option (Nat × Nat)
  stale : Bool
  deriving DecidableEq, Repr

/-- A claim that the Path Table has taken and not yet finished (R36). A refill claim in progress stands in its job's step
field (R129). -/
inductive PtTaken where
  | visit (v : Visit)
  /-- A resolution claim that reads a port's effective state (R119). -/
  | resolution
  /-- A command claim that reads the effective states of ports: those it has read, in the order of its member updates. -/
  | command (reads : List Bool)
  deriving DecidableEq, Repr

/-- The Path Table (R51): the ACTIVE exits and the ACTIVE path sets, each in ascending ID, the claims that wait, and the
claim in progress, if one is TAKEN (R36). -/
structure PathTable where
  exits : List Exit
  sets : List PathSet
  waiting : ClaimLine PtClaim
  taken : Option PtTaken
  deriving DecidableEq, Repr

/-! ## Port Monitor (chapter 4) -/

/-- NONE, LIVE or DEAD: the reported and the forced field (R70). -/
inductive PortView where
  | none | live | dead
  deriving DecidableEq, Repr

/-- The phase of a port (R70). -/
inductive Phase where
  | unknown | live | dead | recovering
  deriving DecidableEq, Repr

/-- The failover pass of a port: IDLE, or RUNNING with a cursor that is none or an (exit ID, set ID) place (R70). -/
inductive Pass where
  | idle
  | running (cursor : Option (Nat × Nat))
  deriving DecidableEq, Repr

/-- The port record (R70). The timer is STOPPED (none) or RUNNING with its time of expiry. -/
structure Port where
  reported : PortView
  forced : PortView
  phase : Phase
  /-- The effective state: LIVE or DOWN. -/
  live : Bool
  timer : Option Nat
  pass : Pass
  deriving DecidableEq, Repr

/-- A PORT report handed to PMON and not yet taken (R72, R99). `credit` holds while the lane is still in the session in
which the report arrived. -/
structure PortReport where
  lane : Fin 4
  port : Fin 64
  state : ReportedState
  credit : Bool
  deriving DecidableEq, Repr

/-- A claim that waits at the port table (R84): a report, the expiry of a port's timer, the CU's command claim, or the read
of one port's effective state that the Path Table makes within the claim it has in progress. -/
inductive PortClaim where
  | report (r : PortReport)
  | expiry (port : Fin 64)
  | command
  | read
  deriving DecidableEq, Repr

/-- The Port Monitor (R88): the port records, the hold-down time, the claims that wait at the port table, the reports
among them in order of arrival (R84), and the clock in milliseconds from which times of expiry count (the model's own
field: notes/assumptions/4.md). -/
structure PortMonitor where
  ports : Vector Port 64
  holdDown : Nat
  waiting : ClaimLine PortClaim
  now : Nat
  deriving DecidableEq, Repr

/-! ## The search's result (chapter 6) -/

/-- FORWARD, DISCARD or CONTROL (R122). -/
inductive Verdict where
  | forward | discard | control
  deriving DecidableEq, Repr

/-- The reason of a result (R122). -/
inductive Reason where
  | route | noRoute | noPath | noDomain | stale | badReq
  deriving DecidableEq, Repr

/-- The exit fields of a FORWARD result (R66). -/
structure ExitFields where
  id : Nat
  port : Fin 64
  addr : BitVec 48
  vlan : Option Nat
  mtu : Nat
  deriving DecidableEq, Repr

/-- The result of a lookup but for its request tag (R122). `matched` holds the matched length and the route tag. -/
structure Result where
  verdict : Verdict
  reason : Reason
  viaBackup : Bool
  matched : Option (Nat × BitVec 16)
  exit : Option ExitFields
  deriving DecidableEq, Repr

/-! ## Lanes (chapter 5) -/

/-- The link state of a lane (R91). -/
inductive Link where
  | disabled | down | aligning | up
  deriving DecidableEq, Repr

/-- What a lookup asks: domain, family and key, mark flag and flow hash (R90). -/
structure Ask where
  domain : Fin 16
  mark : Bool
  hash : BitVec 16
  key : Key
  deriving DecidableEq, Repr

/-- The status of a queue entry (R90); a DONE entry holds its result. -/
inductive EntryStatus where
  | waiting
  | granted
  | done (r : Result)
  deriving DecidableEq, Repr

/-- An entry of a request queue (R90). `ask` is none when the malformed flag is set: its other fields are not used
(R96). -/
structure Entry where
  tag : Byte
  ask : Option Ask
  status : EntryStatus
  deriving DecidableEq, Repr

/-- The message a lane is sending (R100): a CREDIT with its count, or the RESULT of the oldest entry. -/
inductive Sending where
  | credit (count : Nat)
  | result
  deriving DecidableEq, Repr

/-- A lane (R90). `queue` stands oldest first. `signal` says that a signal is on the line: an input from outside,
which R91 consults when the lane enters DOWN. -/
structure Lane where
  link : Link
  queue : List Entry
  held : Nat
  owed : Nat
  reportsPending : Nat
  weight : Nat
  requestsTaken : Nat
  resultsSent : Nat
  overruns : Nat
  checkErrors : Nat
  malformed : Nat
  sending : Option Sending
  signal : Bool
  deriving DecidableEq, Repr

/-! ## Search Unit with lane arbiter (chapters 5 and 6) -/

/-- Where a lookup came from (R113). The lane's entry is its one GRANTED entry. -/
inductive Source where
  | lane (n : Fin 4)
  | probe
  deriving DecidableEq, Repr

/-- The stage of the lookup in flight (R113); RESOLVING holds the match and the miss verdict the RS returned. -/
inductive Stage where
  | matching
  | resolving (len : Nat) (target : Target) (tag : BitVec 16) (miss : DropVerdict)
  deriving DecidableEq, Repr

/-- The lookup in flight (R113); `tag` is absent for PROBE. -/
structure Lookup where
  source : Source
  tag : Option Byte
  ask : Ask
  stage : Stage
  deriving DecidableEq, Repr

/-- The Search Unit (IDLE when there is no lookup), the PROBE presented and not yet granted, and the arbiter's current
lane and allowance (R105, R113). -/
structure SearchUnit where
  lookup : Option Lookup
  probe : Option Ask
  current : Fin 4
  allowance : Nat
  deriving DecidableEq, Repr

/-! ## Job Engine (chapter 7) -/

/-- The filter of a SURVEY (R129, R135). A cover holds its key and length; its family is the filter's. -/
structure Filter where
  domain : Option (Fin 16)
  family : Option Family
  cover : Option (Key × Nat)
  target : Option Target
  cls : Option RouteClass
  deriving DecidableEq, Repr

/-- The action of a SURVEY; REPOINT carries the new target (R129). -/
inductive Action where
  | count
  | retire
  | repoint (target : Target)
  | sweep
  | clearMarks
  deriving DecidableEq, Repr

/-- The kind of a job with its arguments (R129). -/
inductive JobSpec where
  | survey (filter : Filter) (action : Action)
  | refill (first last : Nat)
  deriving DecidableEq, Repr

/-- The position last stepped: a route identity for SURVEY, a set ID for REFILL (R129). -/
inductive Cursor where
  | route (i : Identity)
  | set (id : Nat)
  deriving DecidableEq, Repr

/-- The step field of a slot (R129). An idle step of the model makes a step TAKEN whose claim its block takes first (R16,
notes/assumptions/6.md); STEP_CLAIM and REFILL_CLAIM finish it. -/
inductive StepState where
  | none | waiting | taken
  deriving DecidableEq, Repr

/-- DONE or CANCELLED (R129). -/
inductive JobOutcome where
  | done | cancelled
  deriving DecidableEq, Repr

/-- The fields of a slot that is not IDLE (R129). -/
structure Job where
  spec : JobSpec
  cursor : Option Cursor
  visited : Nat
  matched : Nat
  acted : Nat
  step : StepState
  outcome : Option JobOutcome
  deriving DecidableEq, Repr

/-- A job slot (R129, R130). -/
inductive Slot where
  | idle
  | running (j : Job)
  | ended (j : Job)
  deriving DecidableEq, Repr

/-- The Job Engine (R129): the four slots, the last slot stepped, and the jobs that were RUNNING when RESTART dropped them,
until its part in the tables is made: a TAKEN claim of theirs finishes there, and their pins stand (R149). -/
structure JobEngine where
  slots : Vector Slot 4
  last : Fin 4
  dropped : List Job
  deriving DecidableEq, Repr

/-! ## Attention Unit (chapter 8) -/

/-- The cause of a LANE posting (R104). -/
inductive Cause where
  | overrun | check | linkLost
  deriving DecidableEq, Repr

/-- The cause set of a LANE record (R150). -/
structure CauseSet where
  overrun : Bool
  check : Bool
  linkLost : Bool
  deriving DecidableEq, Repr

/-- SURVEY or REFILL (R129). -/
inductive JobKind where
  | survey | refill
  deriving DecidableEq, Repr

/-- An attention record (R150). -/
inductive Record where
  | port (port : Fin 64) (live : Bool) (count : Nat)
  | job (slot : Fin 4) (kind : JobKind) (outcome : JobOutcome) (visited matched acted : Nat)
  | lane (lane : Fin 4) (causes : CauseSet) (count : Nat)
  | space (units : Nat)
  deriving DecidableEq, Repr

/-- The Attention Unit (R150, R155): the list, oldest first, and the mask (true is MASKED). -/
structure AttentionUnit where
  list : List Record
  maskPort : Bool
  maskLane : Bool
  maskSpace : Bool
  deriving DecidableEq, Repr

/-! ## Management Port and Command Unit (chapter 9) -/

/-- The sixteen result codes (R177, R193). -/
inductive ResultCode where
  | ok | badCmd | badLen | badArg | badKey | exists | absent | noTarget
  | inUse | noSpace | setFull | dupMember | selfRef | noSlot | notRunning | empty
  deriving DecidableEq, Repr

/-- An answer: its result code and the answer words after the first (R170). -/
structure Answer where
  code : ResultCode
  words : List Word
  deriving DecidableEq, Repr

/-- The state of the management port (R164). `starting` is none of the four: a hardware reset is in effect, or the
start-up clearing runs. -/
inductive MpState where
  | starting | ready | collecting | working | answering
  deriving DecidableEq, Repr

/-- The Management Port (R187): port state, command buffer, the answer words not yet read, the held abort, LOST, and
the word that the last WORD READ shifted out to the host (SDO, R172, R173). -/
structure ManagementPort where
  state : MpState
  command : List Word
  answer : List Word
  abortHeld : Bool
  lost : Bool
  readWord : Word
  deriving DecidableEq, Repr

/-- How far the CU is with the command it holds (R171). -/
inductive Progress where
  /-- Handed over; no claim of it is presented yet (R171). -/
  | held
  /-- Its claim is presented and waits until the block takes it (R16, R36, R84; notes/assumptions/13.md). -/
  | waiting
  /-- A PROBE waits for the hand-back of its result (R125). -/
  | probing
  /-- A JOB CANCEL waits until the slot is ENDED (R145). -/
  | cancelling (slot : Fin 4)
  /-- A route command whose claim the Route Store has taken: its reference claim on the Path Table waits (R18, R36). -/
  | referring
  /-- RESTART's parts in the JE, the AU, the SU and the lanes are made; its claims on the Route Store and the Path Table
  wait (R27, R51, R182). -/
  | restartLeft
  /-- RESTART's parts but that in PMON are made; its claim on the port table waits (R84, R89, R182). -/
  | restartPorts
  /-- RESTART's parts are made; the holds of R183 are in force in every block. -/
  | restarting
  /-- PORT READ has read the port record, which gives `words`, and the change count of its PORT record; its claim on
  the Path Table is left (R85, R171). -/
  | counting (port : Fin 64) (words : List Word) (changes : Nat)
  /-- SET PARAMETERS has made its Route Store claim; its claim on the port table is left (R179). -/
  | writingHold (hold : Option Nat)
  /-- SET PARAMETERS has made its claim on the port table; its Route Store claim is presented and waits (R179). -/
  | writingMarks (marks : Option (Nat × Nat))
  /-- READ PARAMETERS has read the watermarks; its claim on the port table is left (R180). -/
  | readingHold (high low : Nat)
  /-- The answer is formed and not yet handed back. -/
  | answered (a : Answer)
  deriving DecidableEq, Repr

/-- The Command Unit: IDLE, or BUSY with the words of one command (R171). -/
inductive CommandUnit where
  | idle
  | busy (words : List Word) (progress : Progress)
  deriving DecidableEq, Repr

/-! ## The device: reset, supplies, reference clock -/

/-- Whether the blocks run (R185, R186). -/
inductive DevPhase where
  /-- A hardware reset is in effect: every block is stopped. -/
  | held
  /-- The start-up clearing runs. -/
  | clearing
  | running
  deriving DecidableEq, Repr

/-- The pins and supplies that act on the whole device (R200): RESET# low as the filter passes it, each supply at or
above its threshold, and REFCLK present. -/
structure Device where
  phase : DevPhase
  resetLow : Bool
  vddValid : Bool
  vddioValid : Bool
  vddlValid : Bool
  refclk : Bool
  deriving DecidableEq, Repr

/-! ## The whole -/

/-- The state of the RWT-240, and the commands waiting, first in, first out. -/
structure State where
  mp : ManagementPort
  cu : CommandUnit
  rs : RouteStore
  pt : PathTable
  pmon : PortMonitor
  lanes : Vector Lane 4
  su : SearchUnit
  je : JobEngine
  au : AttentionUnit
  dev : Device
  pending : List Instr
  deriving DecidableEq, Repr

/-- What a step answers. -/
abbrev Out := Host.Outcome State Fault Refusal

/-! ### Named updates: one for each field -/

def State.setMp (s : State) (x : ManagementPort) : State := { s with mp := x }
def State.setCu (s : State) (x : CommandUnit) : State := { s with cu := x }
def State.setRs (s : State) (x : RouteStore) : State := { s with rs := x }
def State.setPt (s : State) (x : PathTable) : State := { s with pt := x }
def State.setPmon (s : State) (x : PortMonitor) : State := { s with pmon := x }
def State.setLanes (s : State) (x : Vector Lane 4) : State := { s with lanes := x }
def State.setSu (s : State) (x : SearchUnit) : State := { s with su := x }
def State.setJe (s : State) (x : JobEngine) : State := { s with je := x }
def State.setAu (s : State) (x : AttentionUnit) : State := { s with au := x }
def State.setDev (s : State) (x : Device) : State := { s with dev := x }
def State.setPending (s : State) (x : List Instr) : State := { s with pending := x }

/-! ### Hardware-reset values, block by block -/

/-- R13: domain 0 ENABLED, the others DISABLED, every miss verdict DISCARD, no routes. -/
def Domain.reset (d : Fin 16) : Domain := ⟨d = 0, .discard, 0, 0⟩

/-- R13. -/
def RouteStore.resetDomains : Vector Domain 16 := Vector.ofFn Domain.reset

/-- R26. -/
def RouteStore.reset : RouteStore :=
  ⟨[], RouteStore.resetDomains, 0, Config.defaultHigh, Config.defaultLow, true, 0⟩

/-- R51. -/
def PathTable.reset : PathTable := ⟨[], [], [], none⟩

/-- R88. -/
def Port.reset : Port := ⟨.none, .none, .unknown, false, none, .idle⟩

/-- R88. The clock's value at reset is the model's (notes/assumptions/4.md). -/
def PortMonitor.reset : PortMonitor := ⟨Vector.replicate 64 Port.reset, Config.defaultHoldDown, [], 0⟩

/-- R111. Whether a signal is on the line is the outside's: none at the model's reset (notes/assumptions/5.md). -/
def Lane.reset : Lane := ⟨.disabled, [], 0, 0, 0, 1, 0, 0, 0, 0, 0, none, false⟩

/-- R111, R127. -/
def SearchUnit.reset : SearchUnit := ⟨none, none, 0, 1⟩

/-- R148. -/
def JobEngine.reset : JobEngine := ⟨Vector.replicate 4 .idle, 3, []⟩

/-- R161. -/
def AttentionUnit.reset : AttentionUnit := ⟨[], false, false, false⟩

/-- R187. -/
def ManagementPort.reset : ManagementPort := ⟨.ready, [], [], false, false, 0#32⟩

/-- RESET# high, all supplies valid, REFCLK present, the clearing ended (notes/assumptions/5.md). -/
def Device.reset : Device := ⟨.running, false, true, true, true, true⟩

/-- The machine right after reset: the start-up clearing has ended and the port is READY (R187). -/
def State.reset : State where
  mp := ManagementPort.reset
  cu := .idle
  rs := RouteStore.reset
  pt := PathTable.reset
  pmon := PortMonitor.reset
  lanes := Vector.replicate 4 Lane.reset
  su := SearchUnit.reset
  je := JobEngine.reset
  au := AttentionUnit.reset
  dev := Device.reset
  pending := []

end Sys2Proof.Machine
end

