-- ==== Sys2Proof/Machine/Ops.lean ====
section
/-! DEFINITION. The operations that several blocks share: keys, the tables of the Path Table, references, the claims
that wait there, postings, lanes and the Command Unit's progress. Each is written once, from the rule it cites. -/

namespace Sys2Proof.Machine

/-- A saturating count rises by one and holds at its greatest value (00_scope.md, "Saturating counts"). -/
def satInc (cap n : Nat) : Nat := min (n + 1) cap

/-- The lanes, or the job slots, in ascending number. -/
def fours : List (Fin 4) := [0, 1, 2, 3]

/-- The cyclic order after `n`: n + 1, n + 2, n + 3, then n itself, modulo 4 (R106, R140). -/
def cyclicAfter (n : Fin 4) : List (Fin 4) := [n + 1, n + 2, n + 3, n]

/-! ## Keys (R2, R4, R5) -/

def Key.family : Key → Family
  | .narrow _ => .narrow
  | .wide _ => .wide

/-- The width of a family's keys, which is its greatest prefix length (R1). -/
def Family.width : Family → Nat
  | .narrow => 32
  | .wide => 128

/-- Storage units a route of the family takes (R8). -/
def Family.size : Family → Nat
  | .narrow => 1
  | .wide => 4

/-- The key as an unsigned number of its family's width (R4). -/
def Key.toNat : Key → Nat
  | .narrow k => k.toNat
  | .wide k => k.toNat

/-- The two keys are of one family and their first `len` bits, from the most significant, are equal (R5). -/
def Key.agrees (len : Nat) : Key → Key → Bool
  | .narrow a, .narrow b => a >>> (32 - len) == b >>> (32 - len)
  | .wide a, .wide b => a >>> (128 - len) == b >>> (128 - len)
  | _, _ => false

/-- Every bit after the first `len` bits is zero (R2). -/
def Key.zeroBeyond (len : Nat) : Key → Bool
  | .narrow k => k <<< len == 0#32
  | .wide k => k <<< len == 0#128

def Identity.family (i : Identity) : Family := i.key.family

def Route.family (r : Route) : Family := r.ident.family

/-- NARROW ranks before WIDE (R4). -/
def Family.rank : Family → Nat
  | .narrow => 0
  | .wide => 1

/-- Table order: `a` ranks before `b` (R4). -/
def Identity.before (a b : Identity) : Bool :=
  decide (a.domain.val < b.domain.val) || (a.domain == b.domain &&
    (decide (a.family.rank < b.family.rank) || (a.family == b.family &&
      (decide (a.key.toNat < b.key.toNat) || (a.key.toNat == b.key.toNat && decide (a.len < b.len))))))

/-! ## The tables of the Path Table (R28, R29) -/

/-- Put a record into a list that is ascending by `rank`. -/
def insertBy {α : Type} (rank : α → Nat) (x : α) : List α → List α
  | [] => [x]
  | y :: ys => if rank x < rank y then x :: y :: ys else y :: insertBy rank x ys

/-- The exit record of an ID; none when the exit is FREE (R35). -/
def PathTable.exit? (pt : PathTable) (i : Nat) : Option Exit := pt.exits.find? (·.id == i)

/-- The path set record of an ID; none when the set is FREE (R35). -/
def PathTable.set? (pt : PathTable) (i : Nat) : Option PathSet := pt.sets.find? (·.id == i)

/-- Change one exit's record. -/
def PathTable.updExit (pt : PathTable) (i : Nat) (f : Exit → Exit) : PathTable :=
  { pt with exits := pt.exits.map fun e => if e.id == i then f e else e }

/-- Change one path set's record. -/
def PathTable.updSet (pt : PathTable) (i : Nat) (f : PathSet → PathSet) : PathTable :=
  { pt with sets := pt.sets.map fun p => if p.id == i then f p else p }

/-! ## References (R32, R34) -/

/-- References of an exit: route plus member plus pin (R32). -/
def Exit.references (e : Exit) : Nat := e.routeRefs + e.memberRefs + e.pinRefs

/-- References of a path set: route plus backup plus pin (R32). -/
def PathSet.references (p : PathSet) : Nat := p.routeRefs + p.backupRefs + p.pinRefs

/-- The target is DISCARD or CONTROL, or names an ACTIVE record (R20). -/
def PathTable.stands (pt : PathTable) : Target → Bool
  | .pathSet i => (pt.set? i).isSome
  | .exit i => (pt.exit? i).isSome
  | .discard => true
  | .control => true

/-- Change the route references of a target by `f`. -/
def PathTable.countRoute (pt : PathTable) (f : Nat → Nat) : Target → PathTable
  | .pathSet i => pt.updSet i fun p => { p with routeRefs := f p.routeRefs }
  | .exit i => pt.updExit i fun e => { e with routeRefs := f e.routeRefs }
  | .discard => pt
  | .control => pt

/-- Change the pin references of a target by `f`. -/
def PathTable.countPin (pt : PathTable) (f : Nat → Nat) : Target → PathTable
  | .pathSet i => pt.updSet i fun p => { p with pinRefs := f p.pinRefs }
  | .exit i => pt.updExit i fun e => { e with pinRefs := f e.pinRefs }
  | .discard => pt
  | .control => pt

/-- Take a route reference; fails on a FREE record (R20, R32). -/
def PathTable.takeRoute (pt : PathTable) (t : Target) : Option PathTable :=
  if pt.stands t then some (pt.countRoute (· + 1) t) else none

/-- Release a route reference (R20, R32). -/
def PathTable.releaseRoute (pt : PathTable) (t : Target) : PathTable := pt.countRoute (· - 1) t

/-- Take a job's pin; fails on a FREE record (R34). -/
def PathTable.takePin (pt : PathTable) (t : Target) : Option PathTable :=
  if pt.stands t then some (pt.countPin (· + 1) t) else none

/-- Release a job's pin (R34). -/
def PathTable.releasePin (pt : PathTable) (t : Target) : PathTable := pt.countPin (· - 1) t

/-! ## Claims that wait (R36, R84) -/

section
variable {α : Type} [DecidableEq α]

/-- The claim stands in the line. -/
def inLine (c : α) (l : ClaimLine α) : Bool := l.any (·.contains c)

/-- No claim that was presented before it waits. Claims presented at one moment are taken in either order (R36). -/
def firstInLine (c : α) (l : ClaimLine α) : Bool := (l.headD []).contains c

/-- A claim is presented at a moment of its own. -/
def joinLine (c : α) (l : ClaimLine α) : ClaimLine α := l ++ [[c]]

/-- A claim is presented at the moment of the claim presented last. -/
def joinLast (c : α) : ClaimLine α → ClaimLine α
  | [] => [[c]]
  | [g] => [g ++ [c]]
  | g :: gs => g :: joinLast c gs

/-- A claim that stands in the line keeps its place; another is presented. -/
def offerLine (c : α) (l : ClaimLine α) : ClaimLine α := if inLine c l then l else joinLine c l

/-- The claims for which `stay` holds stay in the line; the others are withdrawn. -/
def keepLine (stay : α → Bool) (l : ClaimLine α) : ClaimLine α := (l.map (·.filter stay)).filter (!·.isEmpty)

/-- A claim leaves the line: it is taken, or withdrawn. -/
def leaveLine (c : α) (l : ClaimLine α) : ClaimLine α := keepLine (· != c) l

end

/-- Present a claim to the Path Table, at a moment of its own or, when `together`, at that of the claim presented last. -/
def PathTable.present (pt : PathTable) (c : PtClaim) (together : Bool := false) : PathTable :=
  { pt with waiting := if together then joinLast c pt.waiting else joinLine c pt.waiting }

/-- Present a claim to the Path Table, unless it waits there already. -/
def PathTable.offer (pt : PathTable) (c : PtClaim) : PathTable := { pt with waiting := offerLine c pt.waiting }

/-- The claim is the next that the Path Table takes (R36). -/
def PathTable.takeable (pt : PathTable) (c : PtClaim) : Bool := firstInLine c pt.waiting

/-- A claim waits at the Path Table no more. -/
def PathTable.withdraw (pt : PathTable) (c : PtClaim) : PathTable := { pt with waiting := leaveLine c pt.waiting }

/-- Present a claim to the port table, unless it waits there already. -/
def PortMonitor.offer (m : PortMonitor) (c : PortClaim) : PortMonitor := { m with waiting := offerLine c m.waiting }

/-- The claim is the next that PMON takes (R84). -/
def PortMonitor.takeable (m : PortMonitor) (c : PortClaim) : Bool := firstInLine c m.waiting

/-- A claim waits at the port table no more. -/
def PortMonitor.withdraw (m : PortMonitor) (c : PortClaim) : PortMonitor := { m with waiting := leaveLine c m.waiting }

/-- PMON takes the claim, which it has had before or is presented now (R84). -/
def PortMonitor.admits (m : PortMonitor) (c : PortClaim) : Bool := (m.offer c).takeable c

/-- The report that a claim on the port table is. -/
def PortClaim.report? : PortClaim → Option PortReport
  | .report r => some r
  | .expiry _ | .command | .read => none

/-- The reports handed to PMON and not yet taken, in order of arrival (R72). -/
def PortMonitor.reports (m : PortMonitor) : List PortReport := m.waiting.flatten.filterMap PortClaim.report?

/-- The Path Table reads the effective states of the ports, one after another, each read a claim of its own on the port table
(R84). At a read that PMON does not take, the read is presented and waits, and the reading stops. -/
def PortMonitor.readPorts : List (Fin 64) → PortMonitor → PortMonitor × List Bool
  | [], m => (m, [])
  | p :: ps, m =>
    if m.admits .read then
      let r := readPorts ps (m.withdraw .read)
      (r.1, m.ports[p].live :: r.2)
    else (m.offer .read, [])

/-! ## Postings (R152) -/

/-- What a block hands to the Attention Unit (chapter 8). -/
inductive Posting where
  | port (port : Fin 64) (live : Bool)
  | lane (lane : Fin 4) (cause : Cause)
  | space (units : Nat)
  | job (slot : Fin 4) (kind : JobKind) (outcome : JobOutcome) (visited matched acted : Nat)
  deriving DecidableEq, Repr

/-- The mask masks the posting's kind; JOB cannot be masked (R155). -/
def AttentionUnit.masks (au : AttentionUnit) : Posting → Bool
  | .port _ _ => au.maskPort
  | .lane _ _ => au.maskLane
  | .space _ => au.maskSpace
  | .job .. => false

def CauseSet.empty : CauseSet := ⟨false, false, false⟩

/-- A cause joins a cause set (R152). -/
def CauseSet.join (c : CauseSet) : Cause → CauseSet
  | .overrun => { c with overrun := true }
  | .check => { c with check := true }
  | .linkLost => { c with linkLost := true }

/-- The record that a posting adds (R152). -/
def Posting.record : Posting → Record
  | .port p live => .port p live 1
  | .lane n c => .lane n (CauseSet.empty.join c) 1
  | .space u => .space u
  | .job n k o v m a => .job n k o v m a

/-- The record is the one of the posting's source, to be updated in place. A JOB posting always adds (R153). -/
def Posting.updates : Posting → Record → Bool
  | .port p _, .port q _ _ => p == q
  | .lane n _, .lane m _ _ => n == m
  | .space _, .space _ => true
  | _, _ => false

/-- A record updated in place (R152). -/
def Posting.update : Posting → Record → Record
  | .port _ live, .port q _ c => .port q live (satInc Config.count8 c)
  | .lane _ cause, .lane m cs c => .lane m (cs.join cause) (satInc Config.count8 c)
  | .space u, .space _ => .space u
  | _, r => r

/-- The Attention Unit takes a posting (R152). -/
def AttentionUnit.take (au : AttentionUnit) (p : Posting) : AttentionUnit :=
  if au.masks p then au
  else if au.list.any p.updates then
    { au with list := au.list.map fun r => if p.updates r then p.update r else r }
  else { au with list := au.list ++ [p.record] }

/-! ## Who may act -/

/-- The blocks run: no hardware reset is in effect and no clearing runs (R185, R186). -/
def State.running (s : State) : Bool := s.dev.phase == .running

/-- RESTART's parts in the JE, the AU, the SU and the lanes are made: its holds are in force there (R183). -/
def State.restarting (s : State) : Bool :=
  match s.cu with
  | .busy _ .restartLeft | .busy _ .restartPorts | .busy _ .restarting => true
  | _ => false

/-- RESTART's parts in the RS and the PT are made: its holds are in force there (R183). -/
def State.tablesHeld (s : State) : Bool :=
  match s.cu with
  | .busy _ .restartPorts | .busy _ .restarting => true
  | _ => false

/-- RESTART's part in PMON is made: its holds are in force there (R183). -/
def State.portsHeld (s : State) : Bool :=
  match s.cu with
  | .busy _ .restarting => true
  | _ => false

/-- The blocks run, and the SU, the JE and the arbiter present claims (R183). -/
def State.working (s : State) : Bool := s.running && !s.restarting

/-- The blocks run, and the RS and the PT take claims and finish those that are TAKEN (R183). -/
def State.serving (s : State) : Bool := s.running && !s.tablesHeld

/-- A block hands a posting to the Attention Unit, which drops it during RESTART (R183). -/
def State.post (s : State) (p : Posting) : State :=
  if s.restarting then s else s.setAu (s.au.take p)

/-! ## Claims in progress (R16, R36, R140) -/

/-- The job's step claim is TAKEN: the Route Store has it in progress. -/
def Job.surveyTaken : Job → Bool
  | ⟨.survey _ _, _, _, _, _, .taken, _⟩ => true
  | _ => false

/-- The job's refill claim is TAKEN: the Path Table has it in progress. -/
def Job.refillTaken : Job → Bool
  | ⟨.refill _ _, _, _, _, _, .taken, _⟩ => true
  | _ => false

/-- The job in a RUNNING slot. -/
def Slot.runningJob? : Slot → Option Job
  | .running j => some j
  | .idle | .ended _ => none

/-- The jobs whose claims and pins the tables may hold: those RUNNING, in ascending slot, and those that RESTART has
dropped. -/
def JobEngine.jobs (je : JobEngine) : List Job := fours.filterMap (fun n => je.slots[n].runningJob?) ++ je.dropped

/-- No step claim is in progress at the Route Store (R16). -/
def State.rsFree (s : State) : Bool := !s.je.jobs.any Job.surveyTaken

/-- No claim is in progress at the Path Table (R36). -/
def State.ptFree (s : State) : Bool := s.pt.taken.isNone && !s.je.jobs.any Job.refillTaken

/-- The Path Table takes the claim that waits: none is in progress there, and none presented before it waits (R36). -/
def State.ptTakes (s : State) (c : PtClaim) : Bool := s.ptFree && s.pt.takeable c

/-- The Path Table takes the claim, which it has had before or is presented now (R36). -/
def State.ptAdmits (s : State) (c : PtClaim) : Bool := s.ptFree && (s.pt.offer c).takeable c

/-- The Path Table has the CU's command claim in progress: some of its reads are made (R84). -/
def PathTable.commandTaken (pt : PathTable) : Bool :=
  match pt.taken with
  | some (.command _) => true
  | _ => false

/-- The effective states that the command claim in progress has read. -/
def PathTable.reads (pt : PathTable) : List Bool :=
  match pt.taken with
  | some (.command l) => l
  | _ => []

/-- The target is a record of the Path Table, whose references count the route (R20). -/
def Target.counted : Target → Bool
  | .pathSet _ | .exit _ => true
  | .discard | .control => false

/-! ## Lanes -/

def State.lane (s : State) (n : Fin 4) : Lane := s.lanes[n]

/-- Change one lane's state. -/
def State.updLane (s : State) (n : Fin 4) (f : Lane → Lane) : State :=
  s.setLanes (s.lanes.set n (f (s.lane n)) n.isLt)

/-- One credit falls due to the client, holding at 32 (R95, R96, R99). -/
def Lane.owe (l : Lane) : Lane := { l with owed := satInc Config.creditLimit l.owed }

/-- A message takes one credit as it arrives (R94). -/
def Lane.spend (l : Lane) : Lane := { l with held := l.held - 1 }

/-- The oldest entry is DONE (R100). -/
def Lane.headDone (l : Lane) : Bool :=
  match l.queue with
  | ⟨_, _, .done _⟩ :: _ => true
  | _ => false

/-- The transmitter, when idle in UP, starts the next due message: CREDIT first, then the oldest entry's RESULT
(R100). -/
def Lane.startNext (l : Lane) : Lane :=
  if l.link == .up && l.sending.isNone then
    if 0 < l.owed then { l with sending := some (.credit l.owed), owed := 0 }
    else if l.headDone then { l with sending := some .result }
    else l
  else l

/-- A lane leaves UP, but for its reports at PMON, its next link state and the posting (R93). -/
def Lane.leaveUp (l : Lane) : Lane :=
  { l with queue := [], held := 0, owed := 0, reportsPending := 0, sending := none }

/-- A report of the lane is credited no more. -/
def PortClaim.orphan (n : Fin 4) : PortClaim → PortClaim
  | .report r => .report (if r.lane == n then { r with credit := false } else r)
  | c => c

/-- The reports that a lane handed to PMON are credited no more once it has left UP (R93, R99). -/
def PortMonitor.orphan (m : PortMonitor) (n : Fin 4) : PortMonitor :=
  { m with waiting := m.waiting.map (·.map (·.orphan n)) }

/-- A lane leaves UP for the link state `next` (R93). -/
def State.leaveUp (s : State) (n : Fin 4) (next : Link) : State :=
  (s.updLane n fun l => { l.leaveUp with link := next }).setPmon (s.pmon.orphan n)

/-- A lane that is DOWN while a signal is on its line takes signal detected at once (R91); without REFCLK it stays in
DOWN (R200). -/
def State.detect (s : State) (n : Fin 4) : State :=
  s.updLane n fun l => if l.link == .down && l.signal && s.dev.refclk then { l with link := .aligning } else l

/-! ## The Command Unit -/

/-- The command code of a first word (R193). -/
def commandCode (w : Word) : Nat := bits w 31 24

/-- The parameter count of a first word (R193). -/
def commandCount (w : Word) : Nat := bits w 4 0

/-- What the CU has after a command's work: the state, and how far the command is. -/
abbrev Reply := State × Progress

/-- The command answers `code` and no further word; no state changes (R177). -/
def refuse (s : State) (code : ResultCode) : Reply := (s, .answered ⟨code, []⟩)

/-- The command answers OK with the words given. -/
def answerOk (s : State) (ws : List Word) : Reply := (s, .answered ⟨.ok, ws⟩)

/-- Bits 31–24 and 23–16 of JOB START's first parameter word for a SURVEY with REPOINT, which takes a pin (R132). -/
def startsRepoint (ps : List Word) : Bool := bits (ps.headD 0#32) 31 24 == 1 && bits (ps.headD 0#32) 23 16 == 3

/-- The command makes a command claim on the Path Table in its row (R36): the commands of chapter 2 and chapter 3, and the
pin take of JOB START. PORT READ makes its claim there at the end of its work phase, and RESTART when no claim is in progress
there (R51). -/
def claimsPathTable (code : Nat) (ps : List Word) : Bool :=
  (0x20 ≤ code && code ≤ 0x38) || (code == 0x70 && startsRepoint ps)

/-- The command makes a command claim on the Route Store (R16): the domain and route commands, SET PARAMETERS, READ
PARAMETERS, READ SPACE. RESTART makes its claim there when no claim is in progress (R27). -/
def claimsRouteStore (code : Nat) : Bool := (0x10 ≤ code && code ≤ 0x16) || (0x92 ≤ code && code ≤ 0x94)

/-- The command makes a command claim on the port table in its row (R84): PORT FORCE and PORT READ. SET PARAMETERS makes its
own at the end of its work phase, or in its row while the Route Store is not to be had (R179), READ PARAMETERS at the end of
its work phase (R180), and RESTART as `restartWork` has it. -/
def claimsPortTable (code : Nat) : Bool := code == 0x40 || code == 0x41

/-- The blocks that a command claims in its row take its claims now, or have taken them (R16, R36, R84). SET PARAMETERS makes
that of its two claims which can be taken (R179). -/
def State.admits (s : State) (code : Nat) (ps : List Word) : Bool :=
  (!claimsRouteStore code || s.rsFree || (code == 0x92 && s.pmon.admits .command)) &&
    (!claimsPathTable code ps || s.pt.commandTaken || s.ptAdmits .command) &&
    (!claimsPortTable code || s.pmon.admits .command)

/-- The answer needs no claim on the Route Store, the Path Table or the port table: it is one of the checks that a command
makes before it claims any block (R171, step 1), or JOB START's NOSLOT, which comes before the pin take (R132). MEMBER ADD
makes its SETFULL and DUPMEMBER checks within its claim (R48). -/
def checkedBeforeClaims (code : Nat) : Progress → Bool
  | .answered ⟨.badArg, _⟩ | .answered ⟨.badKey, _⟩ | .answered ⟨.selfRef, _⟩ | .answered ⟨.noSlot, _⟩ => true
  | .answered ⟨.setFull, _⟩ | .answered ⟨.dupMember, _⟩ => code != 0x34
  | _ => false

/-- A command claim waits at the Route Store, where it goes before lookup claims and step claims (R17): it has been
presented and could not be taken (notes/assumptions/13.md). Or the Route Store has a route command's claim in progress, whose
reference claim waits at the Path Table (R16, R18). -/
def State.commandAtRouteStore (s : State) : Bool :=
  match s.cu with
  | .busy (w :: _) .waiting => claimsRouteStore (commandCode w)
  | .busy _ (.writingMarks _) | .busy _ .referring => true
  | _ => false

/-- The command's claim is in progress at the Path Table no more. -/
def PathTable.finishCommand (pt : PathTable) : PathTable := if pt.commandTaken then { pt with taken := none } else pt

/-- The command's claims wait no more and are in progress no more: they are finished, or it makes none after all. -/
def State.dropClaims (s : State) : State :=
  (s.setPt (s.pt.withdraw .command).finishCommand).setPmon (s.pmon.withdraw .command)

/-- A claim of the command goes on waiting. -/
def Progress.waits : Progress → Bool
  | .waiting | .restartLeft | .restartPorts => true
  | _ => false

/-- The CU's command, one of whose claims has been taken, or which needs none, stands at the progress given (R171). -/
def State.progressTo (s : State) (words : List Word) (p : Progress) : State :=
  (if p.waits then s else s.dropClaims).setCu (.busy words p)

/-- The CU presents the command's claims, and the command waits until the blocks take them (R16, R36, R84, R171). -/
def State.await (s : State) (w : Word) (ps : List Word) : State :=
  ((s.setCu (.busy (w :: ps) .waiting)).setPt
    (if claimsPathTable (commandCode w) ps then s.pt.offer .command else s.pt)).setPmon
    (if claimsPortTable (commandCode w) then s.pmon.offer .command else s.pmon)

/-- The CU has not yet applied its command, or has parts of it left that the command's row makes. -/
def Progress.unapplied : Progress → Bool
  | .held | .waiting | .referring | .restartLeft | .restartPorts => true
  | _ => false

/-- The part of a route command that changes references, if it does: it is made within a reference claim on the Path Table,
and the Route Store keeps the command's claim in progress until that is taken (R16, R18, R36). -/
def State.withReference (s : State) (refers : Bool) (work : State → Reply) : Reply :=
  if !refers then work s
  else if s.ptAdmits .reference then work (s.setPt (s.pt.withdraw .reference))
  else (s.setPt (s.pt.offer .reference), .referring)

/-- The part of a command's claim on the Path Table that needs the effective states of ports, in the order given: those not
yet read are read, each read a claim of its own on the port table, and once all are read `work` is done with them. While a
read waits, the command's claim is in progress at the Path Table (R36, R84). -/
def State.withReads (s : State) (ports : List (Fin 64)) (work : List Bool → State → Reply) : Reply :=
  let r := s.pmon.readPorts (ports.drop s.pt.reads.length)
  let seen := s.pt.reads ++ r.2
  let t := s.setPmon r.1
  if seen.length < ports.length then
    (t.setPt { s.pt.withdraw .command with taken := some (.command seen) }, .waiting)
  else work seen t

/-- The work of one host command (R171). When the CU holds a command of this code that it has not yet applied, `body`
is its work on the parameter words, made when the blocks it claims take its claims; until then the claims are presented and
wait. When the CU holds no such command, the step does not take place (notes/assumptions/1.md). -/
def runCommand (code : Nat) (body : List Word → State → Reply) (s : State) : State :=
  match s.cu with
  | .busy (w :: ps) p =>
    if p.unapplied && commandCode w == code && s.running then
      let r := body ps s
      if s.admits code ps || checkedBeforeClaims code r.2 then r.1.progressTo (w :: ps) r.2 else s.await w ps
    else s
  | .idle | .busy [] _ => s

end Sys2Proof.Machine
end

