-- ==== Sys2Proof/Machine/Formats.lean ====
section
/-! DEFINITION. The answer words and the outbound lane messages (chapter 10): code values and layouts. -/

namespace Sys2Proof.Machine

/-- A word of four byte fields, bits 31–24 first. -/
def pack8 (a b c d : Nat) : Word := BitVec.ofNat 32 (a * 2 ^ 24 + b * 2 ^ 16 + c * 2 ^ 8 + d)

/-- A word of two 16-bit fields, bits 31–16 first. -/
def pack16 (hi lo : Nat) : Word := BitVec.ofNat 32 (hi * 2 ^ 16 + lo)

/-- A number that takes a whole word. -/
def wordOf (n : Nat) : Word := BitVec.ofNat 32 n

/-! ## Code values (R191, R193, R194) -/

def ResultCode.value : ResultCode → Nat
  | .ok => 0 | .badCmd => 1 | .badLen => 2 | .badArg => 3 | .badKey => 4 | .exists => 5 | .absent => 6
  | .noTarget => 7 | .inUse => 8 | .noSpace => 9 | .setFull => 10 | .dupMember => 11 | .selfRef => 12
  | .noSlot => 13 | .notRunning => 14 | .empty => 15

def Family.code : Family → Nat
  | .narrow => 1 | .wide => 2

def RouteClass.code : RouteClass → Nat
  | .static => 1 | .learned => 2

/-- Domain state and exit admin. -/
def enabledCode (b : Bool) : Nat := if b then 1 else 2

def DropVerdict.code : DropVerdict → Nat
  | .discard => 2 | .control => 3

def RejoinPolicy.code : RejoinPolicy → Nat
  | .eager => 1 | .hold => 2

/-- Presence, flags, effective state, timer, pass and arm state: 0 or 1. -/
def bitCode (b : Bool) : Nat := if b then 1 else 0

/-- Recorded state: 1 UP, 2 DOWN. -/
def recordedCode (up : Bool) : Nat := if up then 1 else 2

def PortView.code : PortView → Nat
  | .none => 0 | .live => 1 | .dead => 2

def Phase.code : Phase → Nat
  | .unknown => 0 | .live => 1 | .dead => 2 | .recovering => 3

def Link.code : Link → Nat
  | .disabled => 0 | .down => 1 | .aligning => 2 | .up => 3

def JobKind.code : JobKind → Nat
  | .survey => 1 | .refill => 2

def JobOutcome.code : JobOutcome → Nat
  | .done => 1 | .cancelled => 2

def Action.code : Action → Nat
  | .count => 1 | .retire => 2 | .repoint _ => 3 | .sweep => 4 | .clearMarks => 5

def CauseSet.code (c : CauseSet) : Nat := bitCode c.overrun + 2 * bitCode c.check + 4 * bitCode c.linkLost

def Verdict.code : Verdict → Nat
  | .forward => 1 | .discard => 2 | .control => 3

def Reason.code : Reason → Nat
  | .route => 0 | .noRoute => 1 | .noPath => 2 | .noDomain => 3 | .stale => 4 | .badReq => 5

/-! ## Answers (R193) -/

/-- The words of an answer: the result code in bits 31–24 of the first, with the answer count in bits 4–0. -/
def Answer.toWords (a : Answer) : List Word := pack8 a.code.value 0 0 a.words.length :: a.words

/-! ## Word groups (R194) -/

/-- The key words, the most significant first. -/
def Key.toWords : Key → List Word
  | .narrow k => [k]
  | .wide k => [k.extractLsb' 96 32, k.extractLsb' 64 32, k.extractLsb' 32 32, k.extractLsb' 0 32]

/-- The identity word with bits 7–0 zero. -/
def Identity.word (i : Identity) : Word := pack8 i.domain i.family.code i.len 0

/-- The target word; the ID of DISCARD and CONTROL is given as 0. -/
def Target.word : Target → Word
  | .pathSet i => wordOf (1 * 2 ^ 24 + i)
  | .exit i => wordOf (2 * 2 ^ 24 + i)
  | .discard => wordOf (3 * 2 ^ 24)
  | .control => wordOf (4 * 2 ^ 24)

/-- The route record of an answer: 6 words for NARROW, 9 for WIDE (R195). -/
def Route.toWords (r : Route) : List Word :=
  r.ident.word :: (r.ident.key.toWords ++
    [r.target.word, wordOf (r.cls.code * 2 ^ 24 + r.tag.toNat), pack8 (bitCode r.mark) 0 0 0, wordOf r.hits])

/-- Two 16-bit values a word, the earlier in bits 31–16; an odd last one has 0 beside it (R196). -/
def pairWords : List Nat → List Word
  | [] => []
  | [a] => [pack16 a 0]
  | a :: b :: rest => pack16 a b :: pairWords rest

/-! ## The result (R191) -/

/-- Word 0 of a RESULT with kind `kind` and `low` in bits 7–0. -/
def Result.word0 (r : Result) (kind low : Nat) : Word :=
  wordOf (kind * 2 ^ 28 + r.verdict.code * 2 ^ 26 + r.reason.code * 2 ^ 23 + bitCode r.viaBackup * 2 ^ 22
    + bitCode r.matched.isSome * 2 ^ 21
    + bitCode (match r.exit with | some x => x.vlan.isSome | none => false) * 2 ^ 20
    + (match r.matched with | some (len, _) => len | none => 0) * 2 ^ 8 + low)

/-- The exit words 1 to 4 of a RESULT; absent fields are 0. -/
def Result.exitWords (r : Result) : List Word :=
  let tag := match r.matched with | some (_, t) => t.toNat | none => 0
  match r.exit with
  | none => [pack16 tag 0, 0#32, 0#32, 0#32]
  | some x =>
    [pack16 tag x.id, x.addr.extractLsb' 16 32, pack16 (x.addr.extractLsb' 0 16).toNat x.mtu,
      wordOf (x.port.val * 2 ^ 24 + x.vlan.getD 0 * 2 ^ 12)]

/-- The RESULT message of an entry with its check word (R191). -/
def Result.message (r : Result) (tag : Byte) : List Word :=
  withCheckWord (r.word0 8 tag.toNat :: r.exitWords)

/-- The CREDIT message with its check word (R191). -/
def creditMessage (count : Nat) : List Word := withCheckWord [wordOf (9 * 2 ^ 28 + count)]

/-- The PROBE answer: the RESULT's words 0–4 with kind 0 and the bucket in place of the tag (R197). -/
def Result.probeWords (r : Result) (bucket : Nat) : List Word := r.word0 0 bucket :: r.exitWords

/-- The words of the message a lane is sending; none when it sends no message (R100, R191). -/
def Lane.messageWords (l : Lane) : List Word :=
  match l.sending, l.queue with
  | some (.credit n), _ => creditMessage n
  | some .result, ⟨tag, _, .done r⟩ :: _ => r.message tag
  | _, _ => []

end Sys2Proof.Machine
end

