-- ==== Sys2Proof/Machine/Maps.lean ====
section
/-! DEFINITION. Bucket maps (chapter 3): the fill rule, loss, gain and the member update, as changes of one path set
record. -/

namespace Sys2Proof.Machine

/-! ## The fill rule (R57, R58) -/

/-- One pass of the fill rule: each member recorded UP, in list order, as many times as its weight. -/
def fillPass (ms : List Member) : List Nat :=
  (ms.filter (·.up)).flatMap fun m => List.replicate m.weight m.exit

/-- The fill rule: passes repeat from bucket 0 until bucket 63 is assigned; with no member recorded UP every bucket is
EMPTY (R57). -/
def fillMap (ms : List Member) : List (Option Nat) :=
  (List.range Config.buckets).map fun b => (fillPass ms)[b % (fillPass ms).length]?

/-- Run the fill rule on a set (R57). -/
def PathSet.fill (p : PathSet) : PathSet := { p with map := fillMap p.members }

/-- The number of buckets that differ between two maps (R58). -/
def bucketsChanged (old new : List (Option Nat)) : Nat := (old.zip new).countP fun x => x.1 != x.2

/-- A member's bucket count (R55). -/
def bucketCount (map : List (Option Nat)) (exit : Nat) : Nat := map.count (some exit)

/-! ## Loss (R59) -/

/-- The member with the fewest buckets, the earliest in list order on a tie. -/
def fewest : List (Nat × Nat) → Option (Nat × Nat)
  | [] => none
  | c :: cs =>
    match fewest cs with
    | none => some c
    | some d => if d.2 < c.2 then some d else some c

/-- Reassign the lost member's buckets one by one in ascending order; `counts` are the other UP members in list order
with the buckets each holds at that moment (R59). -/
def reassign (lost : Nat) (counts : List (Nat × Nat)) : List (Option Nat) → List (Option Nat)
  | [] => []
  | b :: bs =>
    if b = some lost then
      match fewest counts with
      | none => none :: reassign lost counts bs
      | some c =>
        some c.1 :: reassign lost (counts.map fun d => if d.1 == c.1 then (d.1, d.2 + 1) else d) bs
    else b :: reassign lost counts bs

/-- The members recorded UP other than `exit`, in list order, with their bucket counts. -/
def PathSet.otherUp (p : PathSet) (exit : Nat) : List (Nat × Nat) :=
  (p.members.filter fun m => m.up && m.exit != exit).map fun m => (m.exit, bucketCount p.map m.exit)

/-- The set loses the member: its buckets go to the other UP members (R59). -/
def PathSet.lose (p : PathSet) (exit : Nat) : PathSet :=
  { p with map := reassign exit (p.otherUp exit) p.map }

/-! ## Gain (R61) -/

/-- Every bucket is EMPTY (R63). -/
def PathSet.allEmpty (p : PathSet) : Bool := p.map.all (·.isNone)

/-- The set gains a member: the fill rule runs when every bucket was EMPTY or under EAGER; under HOLD the map is left as
it stands (R61). -/
def PathSet.gain (p : PathSet) : PathSet := if p.allEmpty || p.rejoin == .eager then p.fill else p

/-! ## Members -/

/-- The member that names an exit; there is at most one (R30). -/
def PathSet.member? (p : PathSet) (exit : Nat) : Option Member := p.members.find? (·.exit == exit)

/-- Change the member that names an exit. -/
def PathSet.updMember (p : PathSet) (exit : Nat) (f : Member → Member) : PathSet :=
  { p with members := p.members.map fun m => if m.exit == exit then f m else m }

/-- The number of members recorded UP. -/
def PathSet.upCount (p : PathSet) : Nat := p.members.countP (·.up)

/-- A member update: bring the recorded state of the member naming `exit` to its derived state `up`, with the loss or
the gain that makes (R53). -/
def PathSet.memberUpdate (p : PathSet) (exit : Nat) (up : Bool) : PathSet :=
  match p.member? exit with
  | none => p
  | some m =>
    if m.up = up then p
    else if up then (p.updMember exit fun m => { m with up := true }).gain
    else (p.updMember exit fun m => { m with up := false }).lose exit

/-- A member's derived state: its exit ENABLED and the exit's port effective LIVE, as the member update reads it (R52, R53). -/
def Exit.derivedUp (e : Exit) (live : Bool) : Bool := e.enabled && live

/-- The port of an exit, once when the exit is ACTIVE: whose effective state is read of it (R84). -/
def PathTable.portOf (pt : PathTable) (exit : Nat) : List (Fin 64) := ((pt.exit? exit).map Exit.port).toList

/-- Visit the member named by each set in an exit's user list, in list order; `reads` are the effective states that the
visits read, one each (R40). -/
def PathTable.visitUsers (pt : PathTable) (reads : List Bool) (exit : Nat) : PathTable :=
  match pt.exit? exit with
  | none => pt
  | some e => (e.users.zip reads).foldl (fun t x => t.updSet x.1 (·.memberUpdate exit (e.derivedUp x.2))) pt

/-! ## Members joining and leaving (R32, R33) -/

/-- A member joins a set: a member reference and a place in the user list, in ascending set ID. -/
def PathTable.join (pt : PathTable) (set exit : Nat) : PathTable :=
  pt.updExit exit fun e => { e with memberRefs := e.memberRefs + 1, users := insertBy id set e.users }

/-- A member leaves a set: its reference is released and the set's ID leaves the user list. -/
def PathTable.leave (pt : PathTable) (set exit : Nat) : PathTable :=
  pt.updExit exit fun e => { e with memberRefs := e.memberRefs - 1, users := e.users.filter (· != set) }

/-- A backup reference is taken on a set. -/
def PathTable.takeBackup (pt : PathTable) (set : Nat) : PathTable :=
  pt.updSet set fun p => { p with backupRefs := p.backupRefs + 1 }

/-- The backup reference of a set's old backup, if it had one, is released. -/
def PathTable.releaseBackup (pt : PathTable) : Option Nat → PathTable
  | none => pt
  | some set => pt.updSet set fun p => { p with backupRefs := p.backupRefs - 1 }

end Sys2Proof.Machine
end

