-- ==== Sys2Proof/Machine/Operands.lean ====
section
/-! DEFINITION. The operand forms of the host commands: the parameter fields and codes of R194 and the word groups that
recur in the layouts of R195 to R198. A reader answers none where the manual answers BADARG. -/

namespace Sys2Proof.Machine

/-- The parameter word at a place, counted from 0 after the first word. -/
def param (ps : List Word) (i : Nat) : Word := ps.getD i 0#32

/-- A number in range for a table of `n` records. -/
def inRange (n v : Nat) : Option (Fin n) := if h : v < n then some ⟨v, h⟩ else none

/-- A number at or below the greatest value. -/
def atMost (limit v : Nat) : Option Nat := if v ≤ limit then some v else none

/-! ## Codes (R194) -/

def familyOf : Nat → Option Family
  | 1 => some .narrow
  | 2 => some .wide
  | _ => none

def classOf : Nat → Option RouteClass
  | 1 => some .static
  | 2 => some .learned
  | _ => none

/-- Domain state and exit admin: 1 ENABLED, 2 DISABLED. -/
def enabledOf : Nat → Option Bool
  | 1 => some true
  | 2 => some false
  | _ => none

/-- Miss verdict and empty verdict: 2 DISCARD, 3 CONTROL. -/
def dropVerdictOf : Nat → Option DropVerdict
  | 2 => some .discard
  | 3 => some .control
  | _ => none

def rejoinOf : Nat → Option RejoinPolicy
  | 1 => some .eager
  | 2 => some .hold
  | _ => none

/-- A code of 0 or 1: presence, mark flag, selections of keep or write. -/
def bitOf : Nat → Option Bool
  | 0 => some false
  | 1 => some true
  | _ => none

/-- The field selections (EXIT CHANGE, SET CHANGE): keep, write, make absent. -/
inductive Selection where
  | keep | write | makeAbsent
  deriving DecidableEq, Repr

def selectionOf : Nat → Option Selection
  | 0 => some .keep
  | 1 => some .write
  | 2 => some .makeAbsent
  | _ => none

/-- Mask selections: keep, mask, unmask. The value is the new setting, if one is written. -/
def maskSelectionOf : Nat → Option (Option Bool)
  | 0 => some none
  | 1 => some (some true)
  | 2 => some (some false)
  | _ => none

def forcedOf : Nat → Option PortView
  | 0 => some .none
  | 1 => some .live
  | 2 => some .dead
  | _ => none

/-- The modes of ROUTE READ (R24). -/
inductive ReadMode where
  | exact | next | first
  deriving DecidableEq, Repr

def readModeOf : Nat → Option ReadMode
  | 1 => some .exact
  | 2 => some .next
  | 3 => some .first
  | _ => none

/-! ## Word groups (R194) -/

/-- The number of key words of a family. -/
def Family.keyWords : Family → Nat
  | .narrow => 1
  | .wide => 4

/-- The key words K at a place. -/
def keyAt (ps : List Word) (i : Nat) : Family → Key
  | .narrow => .narrow (param ps i)
  | .wide => .wide (wideKey (param ps i) (param ps (i + 1)) (param ps (i + 2)) (param ps (i + 3)))

/-- The family named by bits 23–16 of a word, which must agree with the parameter count received: the family's key
words and `others` further words (R19, R195, R197). -/
def familyFor (ps : List Word) (others : Nat) (w : Word) : Option Family :=
  (familyOf (bits w 23 16)).bind fun f => if ps.length = f.keyWords + others then some f else none

/-- The identity group I, K with the checks of R19 that do not concern the key's bits; `others` words stand beside K. -/
def identityOf (ps : List Word) (others : Nat) : Option Identity := do
  let d ← inRange 16 (bits (param ps 0) 31 24)
  let f ← familyFor ps others (param ps 0)
  let len ← atMost f.width (bits (param ps 0) 15 8)
  some ⟨d, keyAt ps 1 f, len⟩

/-- The identity's key has no one beyond its prefix length (R2). -/
def Identity.keyOk (i : Identity) : Bool := i.key.zeroBeyond i.len

/-- The target group T (R19, R194); for DISCARD and CONTROL the ID is not read. -/
def targetOf (w : Word) : Option Target :=
  match bits w 31 24 with
  | 1 => (atMost Config.maxSetId (bits w 15 0)).map .pathSet
  | 2 => (atMost Config.maxExitId (bits w 15 0)).map .exit
  | 3 => some .discard
  | 4 => some .control
  | _ => none

/-- The class of the attributes group A. -/
def attrClass (w : Word) : Option RouteClass := classOf (bits w 31 24)

/-- The tag of the attributes group A. -/
def attrTag (w : Word) : BitVec 16 := BitVec.ofNat 16 (bits w 15 0)

/-- A field that is read only when it is selected or present: `some none` when it is not, none when it is read and
undefined. -/
def whenSelected {α : Type} (selected : Bool) (v : Option α) : Option (Option α) :=
  if selected then v.map some else some none

/-- An exit ID in bits 31–16 (R196). -/
def exitIdOf (w : Word) : Option Nat := atMost Config.maxExitId (bits w 31 16)

/-- A set ID in bits 31–16 (R196). -/
def setIdOf (w : Word) : Option Nat := atMost Config.maxSetId (bits w 31 16)

/-- A weight in bits 7–0, 1–15 (R38). -/
def weightOf (w : Word) : Option Nat :=
  if 1 ≤ bits w 7 0 ∧ bits w 7 0 ≤ 15 then some (bits w 7 0) else none

/-- A VLAN value 1–4094 (R38). -/
def vlanOf (v : Nat) : Option Nat := if 1 ≤ v ∧ v ≤ 4094 then some v else none

/-- An MTU 64–16,383 (R38). -/
def mtuOf (v : Nat) : Option Nat := if 64 ≤ v ∧ v ≤ 16383 then some v else none

/-- A station address: bits 47–16 in one word, bits 15–0 in 31–16 of the next (R196). -/
def addrOf (hi lo : Word) : BitVec 48 := BitVec.ofNat 48 (hi.toNat * 65536 + bits lo 31 16)

/-- A member entry: exit ID 31–16, weight 7–0 (R196). -/
def memberEntryOf (w : Word) : Option (Nat × Nat) := do
  let e ← exitIdOf w
  let k ← weightOf w
  some (e, k)

/-- Every entry of a list passes its reader. -/
def readAll {α β : Type} (f : α → Option β) : List α → Option (List β)
  | [] => some []
  | x :: xs => (f x).bind fun y => (readAll f xs).map (y :: ·)

end Sys2Proof.Machine
end

