-- ==== Sys2Proof/Machine/Ports.lean ====
section
/-! DEFINITION. The Port Monitor (chapter 4): the port record, reports, the hold-down timer, forcing, the failover pass,
and the port commands. -/

namespace Sys2Proof.Machine

def State.port (s : State) (p : Fin 64) : Port := s.pmon.ports[p]

def PortMonitor.setPort (m : PortMonitor) (p : Fin 64) (x : Port) : PortMonitor :=
  { m with ports := m.ports.set p x p.isLt }

/-- A port's effective state from its forced field and its phase (R71). -/
def effectiveOf (forced : PortView) (phase : Phase) : Bool :=
  match forced with
  | .live => true
  | .dead => false
  | .none => phase == .live

/-- Recompute the effective state; at an effective change the pass starts afresh (R71, R79). -/
def Port.recompute (x : Port) : Port :=
  let live := effectiveOf x.forced x.phase
  if live == x.live then x else { x with live := live, pass := .running none }

/-- A claim on the port table writes a port's record; of a timer that is STOPPED no expiry waits any more (R75, R76). -/
def PortMonitor.writePort (m : PortMonitor) (p : Fin 64) (x : Port) : PortMonitor :=
  if x.timer.isNone then (m.setPort p x).withdraw (.expiry p) else m.setPort p x

/-- The visit claim that is TAKEN. -/
def PathTable.visiting (pt : PathTable) : Option Visit :=
  match pt.taken with
  | some (.visit v) => some v
  | _ => none

/-- The pass of the port starts afresh (R79, R82): a visit claim of it that waits is withdrawn and the new pass presents its
first one; a visit claim that is TAKEN goes on, what it returns is discarded, and the new pass presents its first claim
when that has finished. -/
def PathTable.restartPass (pt : PathTable) (p : Fin 64) : PathTable :=
  match pt.visiting with
  | some v =>
    if v.port == p then { pt with taken := some (.visit { v with stale := true }) }
    else (pt.withdraw (.visit p)).present (.visit p)
  | none => (pt.withdraw (.visit p)).present (.visit p)

/-- A claim that changes a port's record by `f` (R71, R79): at an effective change the pass starts afresh, and a PORT
posting is handed to the AU. -/
def State.portClaim (s : State) (p : Fin 64) (f : Port → Port) : State :=
  let x := (f (s.port p)).recompute
  let t := s.setPmon (s.pmon.writePort p x)
  if x.live == (s.port p).live then t else (t.setPt (t.pt.restartPass p)).post (.port p x.live)

/-! ## Reports (R72, R73) -/

/-- A LIVE report with hold-down time `h` taken at `now` (R73). -/
def Port.reportLive (h now : Nat) (x : Port) : Port :=
  let x := { x with reported := .live }
  match x.phase with
  | .unknown | .dead =>
    if h = 0 then { x with phase := .live } else { x with phase := .recovering, timer := some (now + h) }
  | .recovering | .live => x

/-- A DEAD report (R73). -/
def Port.reportDead (x : Port) : Port :=
  let x := { x with reported := .dead }
  match x.phase with
  | .unknown | .live => { x with phase := .dead }
  | .dead => x
  | .recovering => { x with phase := .dead, timer := none }

def Port.report (h now : Nat) : ReportedState → Port → Port
  | .live => Port.reportLive h now
  | .dead => Port.reportDead

/-- PMON tells the lane that its report has been taken: one fewer pending, one credit more owed (R99). -/
def Lane.reportTaken (l : Lane) : Lane :=
  { l with reportsPending := l.reportsPending - 1 }.owe.startNext

/-- The report that PMON takes next, if it takes one next. -/
def PortMonitor.nextReport? (m : PortMonitor) : Option PortReport := (m.waiting.headD []).findSome? PortClaim.report?

/-- The report that is taken next leaves the line. -/
def PortMonitor.popReport (m : PortMonitor) (r : PortReport) : PortMonitor :=
  match m.waiting with
  | [] => m
  | g :: gs => { m with waiting := if (g.erase (.report r)).isEmpty then gs else g.erase (.report r) :: gs }

/-! ## The timer (R74, R75) -/

/-- The time left to a timer's expiry in whole milliseconds; 0 while it is STOPPED (R74). -/
def PortMonitor.timeLeft (m : PortMonitor) (x : Port) : Nat :=
  match x.timer with
  | none => 0
  | some t => t - m.now

/-- The expiry of a RUNNING timer (R75). -/
def Port.expire (x : Port) : Port :=
  { x with timer := none, phase := if x.phase == .recovering then .live else x.phase }

/-- No timer whose time has not come yet has an earlier one: the clock may move on to this time. -/
def PortMonitor.firstToExpire (m : PortMonitor) (t : Nat) : Bool :=
  m.ports.toList.all fun x => match x.timer with | none => true | some u => t ≤ u || u ≤ m.now

/-- The ports whose RUNNING timer reaches its time of expiry by the time `t`, their expiry not yet presented. -/
def PortMonitor.due (m : PortMonitor) (t : Nat) : List (Fin 64) :=
  (List.finRange 64).filter fun p =>
    (match m.ports[p].timer with | none => false | some u => decide (u ≤ t)) && !inLine (.expiry p) m.waiting

/-- The clock moves on to the time `t`, and the expiries that fall due are presented, those of one moment together (R75,
R84, notes/assumptions/4.md). -/
def PortMonitor.advance (m : PortMonitor) (t : Nat) : PortMonitor :=
  { m with now := max m.now t
           waiting := if (m.due t).isEmpty then m.waiting else m.waiting ++ [(m.due t).map .expiry] }

/-! ## The failover pass (R81, R82) -/

/-- The first exit at or past a bound on its ID that the pass may stand on: ACTIVE, on the port, with users. -/
def PathTable.passExit (pt : PathTable) (p : Fin 64) (above : Nat → Bool) : Option (Nat × Nat) :=
  match pt.exits.find? fun e => above e.id && e.port == p && !e.users.isEmpty with
  | none => none
  | some e => e.users.head?.map (e.id, ·)

/-- The next place of the pass of a port from its cursor, from the tables as they stand (R81); none at the end. -/
def PathTable.nextPlace (pt : PathTable) (p : Fin 64) : Option (Nat × Nat) → Option (Nat × Nat)
  | none => pt.passExit p fun _ => true
  | some (e, sid) =>
    match (pt.exit? e).bind fun x => if x.port == p then x.users.find? (sid < ·) else none with
    | some sid' => some (e, sid')
    | none => pt.passExit p (e < ·)

/-- One visit: the member update on the place's member, by the effective state that it reads (R81). -/
def PathTable.visit (pt : PathTable) (live : Bool) (place : Nat × Nat) : PathTable :=
  match pt.exit? place.1 with
  | none => pt
  | some e => pt.updSet place.2 (·.memberUpdate place.1 (e.derivedUp live))

/-- PMON takes what a visit claim returns: the new cursor, or the end of the pass; of a claim whose pass has been restarted
since it discards either (R82). -/
def State.passTo (s : State) (v : Visit) (pass : Pass) : State :=
  if v.stale then s else s.setPmon (s.pmon.setPort v.port { s.port v.port with pass := pass })

/-- A visit claim is taken and finished, or one that is TAKEN is finished: the next place from its cursor is visited, by
the effective state that it reads from PMON, and the next claim presented, or the pass has reached its end (R81, R82). A
claim whose pass has been restarted presents the first claim of the new pass either way. While a claim presented before the
read waits at the port table, the visit claim is TAKEN and the read waits (R84). -/
def State.visitPass (s : State) (v : Visit) : State :=
  let pt := { s.pt.withdraw (.visit v.port) with taken := none }
  match pt.nextPlace v.port v.cursor with
  | none => (s.setPt (if v.stale then pt.present (.visit v.port) else pt)).passTo v .idle
  | some place =>
    if s.pmon.admits .read then
      ((s.setPmon (s.pmon.withdraw .read)).setPt
        ((pt.visit (s.port v.port).live place).present (.visit v.port))).passTo v (.running (some place))
    else (s.setPt { pt with taken := some (.visit v) }).setPmon (s.pmon.offer .read)

/-- The visit claim that the Path Table takes next, if it takes one next: its port. -/
def PathTable.nextVisit? (pt : PathTable) : Option (Fin 64) :=
  (pt.waiting.headD []).findSome? fun c => match c with | .visit p => some p | _ => none

/-- The Path Table takes the visit claim that is the first to wait: it is TAKEN until VISIT_CLAIM finishes it (R36, R82,
notes/assumptions/6.md). -/
def State.takeVisit (s : State) : State :=
  match s.pt.nextVisit? with
  | none => s
  | some p =>
    match (s.port p).pass with
    | .idle => s
    | .running cursor =>
      if s.serving && s.ptFree then s.setPt { s.pt.withdraw (.visit p) with taken := some (.visit ⟨p, cursor, false⟩) } else s

/-! ## Port commands -/

/-- PORT FORCE (R77, R78). -/
def portForceWork (ps : List Word) (s : State) : Reply :=
  match inRange 64 (bits (param ps 0) 31 24), forcedOf (bits (param ps 0) 23 16) with
  | some p, some v =>
    let t := s.portClaim p fun x => { x with forced := v }
    answerOk t [pack8 (t.port p).forced.code (t.port p).phase.code (bitCode (t.port p).live) 0]
  | _, _ => refuse s .badArg

/-- The change count of the port's PORT record in the list, or 0 (R85). -/
def AttentionUnit.portCount (au : AttentionUnit) (p : Fin 64) : Nat :=
  (au.list.findSome? fun r => match r with | .port q _ c => if q == p then some c else none | _ => none).getD 0

/-- The answer words of PORT READ that its claim on the port table gives (R85, R197). -/
def State.portWords (s : State) (p : Fin 64) : List Word :=
  let x := s.port p
  let cursor : Option (Nat × Nat) := match x.pass with | .idle => none | .running c => c
  [pack8 x.reported.code x.forced.code x.phase.code (bitCode x.live),
    wordOf (bitCode x.timer.isSome * 2 ^ 24 + s.pmon.timeLeft x),
    pack8 (bitCode (x.pass != .idle)) (bitCode cursor.isSome) 0 0,
    match cursor with | none => 0#32 | some c => pack16 c.1 c.2]

/-- The last answer word of PORT READ: the change count of the PORT record, and the number of the port's ACTIVE exits,
which its claim on the Path Table gives (R85, R197). -/
def PathTable.portWord (pt : PathTable) (p : Fin 64) (changes : Nat) : Word :=
  wordOf (changes * 2 ^ 24 + pt.exits.countP (·.port == p))

/-- PORT READ's claim on the port table, with its read of the attention list; its claim on the Path Table comes with the
end of the work phase (R85, R171, notes/assumptions/12.md). -/
def portReadWork (ps : List Word) (s : State) : Reply :=
  match inRange 64 (bits (param ps 0) 31 24) with
  | none => refuse s .badArg
  | some p => (s, .counting p (s.portWords p) (s.au.portCount p))

/-! ## The meanings -/

/-- PORT_FORCE (R77). -/
def execPortForce (s : State) : Out := .next (runCommand 0x40 portForceWork s)

/-- PORT_READ (R85). -/
def execPortRead (s : State) : Out := .next (runCommand 0x41 portReadWork s)

/-- REPORT_TAKEN (R72): PMON takes the report that arrived first, unless a claim presented before it waits (R84), and, in
the session it arrived in, credits its lane (R99). -/
def execReportTaken (s : State) : Out :=
  match s.pmon.nextReport? with
  | none => .next s
  | some r =>
    .next (if s.running && !s.portsHeld then
      let t := (s.setPmon (s.pmon.popReport r)).portClaim r.port (Port.report s.pmon.holdDown s.pmon.now r.state)
      if r.credit then t.updLane r.lane Lane.reportTaken else t
    else s)

/-- HOLD_DOWN_EXPIRY (R75): a RUNNING timer expires. Its expiry says that its time has come, so the clock stands at
that time afterwards, if it did not already (notes/assumptions/4.md). While a claim presented before the expiry waits at
the port table, the expiry waits (R84). -/
def execHoldDownExpiry (p : Fin 64) (s : State) : Out :=
  match (s.port p).timer with
  | none => .next s
  | some t =>
    let m := s.pmon.advance t
    .next (if s.running && s.pmon.firstToExpire t then
      if m.takeable (.expiry p) then (s.setPmon m).portClaim p Port.expire else s.setPmon m
    else s)

/-- VISIT_CLAIM (R81): a visit claim that is TAKEN is finished; one that waits is taken and finished (R36, R82). -/
def execVisitClaim (p : Fin 64) (s : State) : Out :=
  match s.pt.visiting with
  | some v => .next (if s.serving && v.port == p then s.visitPass v else s)
  | none =>
    match (s.port p).pass with
    | .idle => .next s
    | .running cursor => .next (if s.serving && s.ptTakes (.visit p) then s.visitPass ⟨p, cursor, false⟩ else s)

end Sys2Proof.Machine
end

