-- ==== Sys2Proof/Machine/Routes.lean ====
section
/-! DEFINITION. The Route Store (chapter 1): match, insertion, withdrawal, the watermark, and the work of the domain and
route commands. -/

namespace Sys2Proof.Machine

/-! ## The route table -/

def RouteStore.find? (rs : RouteStore) (i : Identity) : Option Route := rs.routes.find? (·.ident == i)

/-- Change one route's fields other than its identity. -/
def RouteStore.updRoute (rs : RouteStore) (i : Identity) (f : Route → Route) : RouteStore :=
  { rs with routes := rs.routes.map fun r => if r.ident == i then f r else r }

/-- Put a route at its place in table order (R4). -/
def insertRoute (r : Route) : List Route → List Route
  | [] => [r]
  | x :: xs => if r.ident.before x.ident then r :: x :: xs else x :: insertRoute r xs

/-- The first route in the table whose identity ranks after the position (R4). -/
def RouteStore.successor (rs : RouteStore) (i : Identity) : Option Route :=
  rs.routes.find? fun r => i.before r.ident

/-- The route is a candidate for a lookup of the domain and key (R5). -/
def Route.candidate (d : Fin 16) (k : Key) (r : Route) : Bool :=
  r.ident.domain == d && r.ident.key.agrees r.ident.len k

/-- The route of greatest prefix length in a list. -/
def longest : List Route → Option Route
  | [] => none
  | r :: rs =>
    match longest rs with
    | none => some r
    | some b => if r.ident.len < b.ident.len then some b else some r

/-- The matched route: the candidate with the greatest prefix length (R5). -/
def RouteStore.longestMatch (rs : RouteStore) (d : Fin 16) (k : Key) : Option Route :=
  longest (rs.routes.filter (·.candidate d k))

def RouteStore.domain (rs : RouteStore) (d : Fin 16) : Domain := rs.domains[d]

def RouteStore.updDomain (rs : RouteStore) (d : Fin 16) (f : Domain → Domain) : RouteStore :=
  { rs with domains := rs.domains.set d (f (rs.domain d)) d.isLt }

/-- Change a domain's route count for a family (R3). -/
def RouteStore.countFamily (rs : RouteStore) (d : Fin 16) (fam : Family) (f : Nat → Nat) : RouteStore :=
  rs.updDomain d fun x =>
    match fam with
    | .narrow => { x with narrowCount := f x.narrowCount }
    | .wide => { x with wideCount := f x.wideCount }

/-- A marking match sets the mark and counts the hit (R6, R7). -/
def Route.hit (r : Route) : Route := { r with mark := true, hits := satInc Config.count32 r.hits }

/-- Reset of a route's activity (R7). -/
def Route.resetActivity (r : Route) : Route := { r with mark := false, hits := 0 }

/-! ## The watermark (R11) -/

/-- Evaluate the watermark: re-arm below the low one, post SPACE and disarm at or above the high one (R11). -/
def State.evalWatermark (s : State) : State :=
  if !s.rs.armed && s.rs.units < s.rs.low then s.setRs { s.rs with armed := true }
  else if s.rs.armed && s.rs.high ≤ s.rs.units then
    (s.setRs { s.rs with armed := false }).post (.space s.rs.units)
  else s

/-! ## Insertion and withdrawal -/

/-- Insertion of a route for which there is room (R9). -/
def State.insertRoute (s : State) (r : Route) : State :=
  (s.setRs (RouteStore.countFamily
    { s.rs with routes := Machine.insertRoute r s.rs.routes, units := s.rs.units + r.family.size }
    r.ident.domain r.family (· + 1))).evalWatermark

/-- Withdrawal of a route: by ROUTE DROP, RETIRE and SWEEP alike (R10). -/
def State.withdrawRoute (s : State) (r : Route) : State :=
  ((s.setRs (RouteStore.countFamily
    { s.rs with routes := s.rs.routes.filter (·.ident != r.ident), units := s.rs.units - r.family.size }
    r.ident.domain r.family (· - 1))).setPt (s.pt.releaseRoute r.target)).evalWatermark

/-! ## Domain commands -/

/-- DOMAIN SET (R14, R195). -/
def domainSetWork (ps : List Word) (s : State) : Reply :=
  let w := param ps 0
  match inRange 16 (bits w 31 24), enabledOf (bits w 23 16), dropVerdictOf (bits w 15 8) with
  | some d, some en, some miss =>
    answerOk (s.setRs (s.rs.updDomain d fun x => { x with enabled := en, miss := miss })) []
  | _, _, _ => refuse s .badArg

/-- DOMAIN READ (R15, R195). -/
def domainReadWork (ps : List Word) (s : State) : Reply :=
  match inRange 16 (bits (param ps 0) 31 24) with
  | none => refuse s .badArg
  | some d =>
    let x := s.rs.domain d
    answerOk s [pack8 (enabledCode x.enabled) x.miss.code 0 0, wordOf x.narrowCount, wordOf x.wideCount]

/-! ## Route commands -/

/-- The checks that every command naming a route by its identity makes: BADARG, then BADKEY (R19). `others` words stand
beside the key words; `more` are the command's further checks for BADARG. -/
def withIdentity {α : Type} (ps : List Word) (others : Nat) (more : Identity → Option α) (s : State)
    (work : Identity → α → Reply) : Reply :=
  match identityOf ps others with
  | none => refuse s .badArg
  | some i =>
    match more i with
    | none => refuse s .badArg
    | some a => if i.keyOk then work i a else refuse s .badKey

/-- The place of the parameter word after the key words. -/
def Identity.after (i : Identity) : Nat := 1 + i.family.keyWords

/-- ROUTE ADD's target and attributes (R195). -/
def routeAddFields (ps : List Word) (i : Identity) : Option (Target × RouteClass × BitVec 16) := do
  let t ← targetOf (param ps i.after)
  let c ← attrClass (param ps (i.after + 1))
  some (t, c, attrTag (param ps (i.after + 1)))

/-- ROUTE ADD of a route with the identity, target, class and tag given (R21). A refused insertion releases the reference its
take made, so it leaves the state as it was. -/
def addRoute (i : Identity) (a : Target × RouteClass × BitVec 16) (s : State) : Reply :=
  match s.pt.takeRoute a.1 with
  | none => refuse s .noTarget
  | some pt =>
    if (s.rs.find? i).isSome then refuse s .exists
    else if Config.storageUnits < s.rs.units + i.family.size then refuse s .noSpace
    else
      let t := (s.setPt pt).insertRoute ⟨i, a.1, a.2.1, a.2.2, false, 0⟩
      answerOk t [wordOf t.rs.units]

/-- ROUTE ADD (R21): it takes a reference when its target is a path set or an exit (R20). -/
def routeAddWork (ps : List Word) (s : State) : Reply :=
  withIdentity ps 3 (routeAddFields ps) s fun i a => s.withReference a.1.counted (addRoute i a)

/-- The optional fields of ROUTE CHANGE: each is read only as selected (R195). -/
structure RouteChange where
  target : Option Target
  cls : Option RouteClass
  tag : Option (BitVec 16)
  resetActivity : Bool
  deriving DecidableEq, Repr

/-- A bit of ROUTE CHANGE's selection word. -/
def selected (w : Word) (i : Nat) : Bool := bits w i i == 1

/-- The selection word, T and A of ROUTE CHANGE (R195). -/
def routeChangeFields (ps : List Word) (i : Identity) : Option RouteChange := do
  let sel := param ps i.after
  let t ← whenSelected (selected sel 0) (targetOf (param ps (i.after + 1)))
  let c ← whenSelected (selected sel 1) (attrClass (param ps (i.after + 2)))
  some ⟨t, c, if selected sel 2 then some (attrTag (param ps (i.after + 2))) else none, selected sel 3⟩

/-- What ROUTE CHANGE writes into the record (R22, steps 3 and 4). -/
def RouteChange.apply (c : RouteChange) (r : Route) : Route :=
  let r := { r with target := c.target.getD r.target, cls := c.cls.getD r.cls, tag := c.tag.getD r.tag }
  if c.resetActivity then r.resetActivity else r

/-- The reference changes of ROUTE CHANGE: the take on a new target before the release on the old (R20, R22). -/
def RouteChange.references (c : RouteChange) (old : Target) (pt : PathTable) : Option PathTable :=
  match c.target with
  | none => some pt
  | some t => (pt.takeRoute t).map (·.releaseRoute old)

/-- ROUTE CHANGE takes or releases a reference (R20): it writes a target, and the new one or the old is a path set or an
exit. -/
def RouteChange.refers (c : RouteChange) (old : Target) : Bool := c.target.any fun t => t.counted || old.counted

/-- ROUTE CHANGE of a route that is in the table (R22). -/
def changeRoute (i : Identity) (c : RouteChange) (r : Route) (s : State) : Reply :=
  match c.references r.target s.pt with
  | none => refuse s .noTarget
  | some pt => answerOk ((s.setPt pt).setRs (s.rs.updRoute i c.apply)) []

/-- ROUTE CHANGE (R22). -/
def routeChangeWork (ps : List Word) (s : State) : Reply :=
  withIdentity ps 4 (routeChangeFields ps) s fun i c =>
    match s.rs.find? i with
    | none => refuse s .absent
    | some r => s.withReference (c.refers r.target) (changeRoute i c r)

/-- ROUTE DROP of a route that is in the table (R23). -/
def dropRoute (r : Route) (s : State) : Reply :=
  let t := s.withdrawRoute r
  answerOk t [wordOf t.rs.units]

/-- ROUTE DROP (R23): it releases a reference when the route's target is a path set or an exit (R10). -/
def routeDropWork (ps : List Word) (s : State) : Reply :=
  withIdentity ps 1 (fun _ => some ()) s fun i _ =>
    match s.rs.find? i with
    | none => refuse s .absent
    | some r => s.withReference r.target.counted (dropRoute r)

/-- A read that finds a route answers its record, and ABSENT otherwise (R24, R25). -/
def answerRoute (s : State) : Option Route → Reply
  | none => refuse s .absent
  | some r => answerOk s r.toWords

/-- ROUTE READ (R24). FIRST reads no field but the mode. -/
def routeReadWork (ps : List Word) (s : State) : Reply :=
  match readModeOf (bits (param ps 0) 7 0) with
  | none => refuse s .badArg
  | some .first => answerRoute s s.rs.routes.head?
  | some .exact => withIdentity ps 1 (fun _ => some ()) s fun i _ => answerRoute s (s.rs.find? i)
  | some .next => withIdentity ps 1 (fun _ => some ()) s fun i _ => answerRoute s (s.rs.successor i)

/-- ROUTE FIND (R25): the prefix length is not read, the key is not checked, nothing is marked. -/
def routeFindWork (ps : List Word) (s : State) : Reply :=
  match inRange 16 (bits (param ps 0) 31 24), familyFor ps 1 (param ps 0) with
  | some d, some f => answerRoute s (s.rs.longestMatch d (keyAt ps 1 f))
  | _, _ => refuse s .badArg

/-! ## The meanings -/

/-- DOMAIN_SET (R14). -/
def execDomainSet (s : State) : Out := .next (runCommand 0x10 domainSetWork s)

/-- DOMAIN_READ (R15). -/
def execDomainRead (s : State) : Out := .next (runCommand 0x11 domainReadWork s)

/-- ROUTE_ADD (R21). -/
def execRouteAdd (s : State) : Out := .next (runCommand 0x12 routeAddWork s)

/-- ROUTE_CHANGE (R22). -/
def execRouteChange (s : State) : Out := .next (runCommand 0x13 routeChangeWork s)

/-- ROUTE_DROP (R23). -/
def execRouteDrop (s : State) : Out := .next (runCommand 0x14 routeDropWork s)

/-- ROUTE_READ (R24). -/
def execRouteRead (s : State) : Out := .next (runCommand 0x15 routeReadWork s)

/-- ROUTE_FIND (R25). -/
def execRouteFind (s : State) : Out := .next (runCommand 0x16 routeFindWork s)

end Sys2Proof.Machine
end

