-- ==== Sys2Proof/Machine/Search.lean ====
section
/-! DEFINITION. The search (chapter 6) with the lane arbiter (section 5.9): PROBE, the grant, the lookup claim, the
resolution claim, the result and its hand-back. -/

namespace Sys2Proof.Machine

/-- The bucket of a lookup: its flow hash mod 64 (R114). -/
def Ask.bucket (a : Ask) : Nat := a.hash.toNat % Config.buckets

/-- The verdict that a miss verdict or an empty verdict is. -/
def DropVerdict.verdict : DropVerdict → Verdict
  | .discard => .discard
  | .control => .control

/-- The exit fields read within a resolution claim (R66). -/
def Exit.fields (e : Exit) : ExitFields := ⟨e.id, e.port, e.addr, e.vlan, e.mtu⟩

/-! ## Results (R122) -/

/-- A result of a lookup that matched no route: NOROUTE, NODOMAIN or BADREQ. -/
def Result.unmatched (v : Verdict) (r : Reason) : Result := ⟨v, r, false, none, none⟩

/-- A result of a lookup that matched a route and does not forward. -/
def Result.matchedNoExit (v : Verdict) (r : Reason) (len : Nat) (tag : BitVec 16) : Result :=
  ⟨v, r, false, some (len, tag), none⟩

/-- A FORWARD result. -/
def Result.forward (viaBackup : Bool) (len : Nat) (tag : BitVec 16) (e : Exit) : Result :=
  ⟨.forward, .route, viaBackup, some (len, tag), some e.fields⟩

/-! ## The hand-back (R123) -/

/-- The GRANTED entry of a lane becomes DONE with the result; when it has left the queue, nothing does (R93, R123). -/
def Lane.finish (r : Result) (l : Lane) : Lane :=
  { l with queue := l.queue.map fun e => if e.status == .granted then { e with status := .done r } else e }

/-- The SU hands a result back to its source and returns to IDLE (R123): to the lane, which sends it when it is due, or
to the PROBE that the CU works on (R126). -/
def State.handBack (s : State) (source : Source) (bucket : Nat) (r : Result) : State :=
  let t := s.setSu { s.su with lookup := none }
  match source with
  | .lane n => t.updLane n fun l => (l.finish r).startNext
  | .probe =>
    match t.cu with
    | .busy ws .probing => t.setCu (.busy ws (.answered ⟨.ok, r.probeWords bucket⟩))
    | _ => t

/-! ## PROBE (R125) -/

/-- PROBE's parameter words (R125, R197). -/
def probeFields (ps : List Word) : Option Ask := do
  let d ← inRange 16 (bits (param ps 0) 31 24)
  let f ← familyFor ps 2 (param ps 0)
  let mark ← bitOf (bits (param ps 0) 15 8)
  let hash ← atMost 65535 (param ps 1).toNat
  some ⟨d, mark, BitVec.ofNat 16 hash, keyAt ps 2 f⟩

/-- PROBE: presented to the arbiter; its work phase lasts until the hand-back (R125). -/
def probeWork (ps : List Word) (s : State) : Reply :=
  match probeFields ps with
  | none => refuse s .badArg
  | some a => (s.setSu { s.su with probe := some a }, .probing)

/-! ## The arbiter (R105, R106) -/

/-- A WAITING entry stands in the queue. -/
def Lane.hasWaiting (l : Lane) : Bool := l.queue.any (·.status == .waiting)

/-- The lane is eligible: UP, with a WAITING entry (R105). -/
def State.eligible (s : State) (n : Fin 4) : Bool := (s.lane n).link == .up && (s.lane n).hasWaiting

/-- The lane that is granted when no PROBE is eligible, with the allowance left after the grant (R106, steps 2 and 3). -/
def State.chooseLane (s : State) : Option (Fin 4 × Nat) :=
  if s.eligible s.su.current && 0 < s.su.allowance then some (s.su.current, s.su.allowance - 1)
  else ((cyclicAfter s.su.current).find? s.eligible).map fun n => (n, (s.lane n).weight - 1)

/-- The oldest WAITING entry becomes GRANTED (R105). -/
def grantOldest : List Entry → List Entry
  | [] => []
  | e :: es => if e.status == .waiting then { e with status := .granted } :: es else e :: grantOldest es

/-- A lane's oldest WAITING entry is granted (R106, R114): a malformed one is answered at once with BADREQ (R115),
any other enters stage MATCHING. -/
def State.grantLane (s : State) (n : Fin 4) (allowance : Nat) : State :=
  match (s.lane n).queue.find? (·.status == .waiting) with
  | none => s
  | some e =>
    let t := (s.updLane n fun l => { l with queue := grantOldest l.queue }).setSu
      { s.su with current := n, allowance := allowance }
    match e.ask with
    | none => t.handBack (.lane n) 0 (.unmatched .discard .badReq)
    | some a => t.setSu { t.su with lookup := some ⟨.lane n, some e.tag, a, .matching⟩ }

/-! ## The lookup claim (R116, R117) -/

/-- A step claim waits at the Route Store (R17). -/
def JobEngine.stepClaimWaits (je : JobEngine) : Bool :=
  fours.any fun n =>
    match je.slots[n] with
    | .running ⟨.survey _ _, _, _, _, _, .waiting, _⟩ => true
    | _ => false

/-- A lookup claim waits at the Route Store: the lookup in flight is in stage MATCHING (R116). -/
def SearchUnit.claimWaits (su : SearchUnit) : Bool :=
  match su.lookup with
  | some ⟨_, _, _, .matching⟩ => true
  | _ => false

/-- The marking of a match, if the mark flag is set (R6). -/
def RouteStore.markMatch (rs : RouteStore) (mark : Bool) (r : Route) : RouteStore :=
  if mark then rs.updRoute r.ident Route.hit else rs

/-- The Route Store's part of the lookup claim and what the SU does with its answer (R6, R116, R117). The SU presents the
resolution claim later (R117). -/
def State.lookupClaim (s : State) (k : Lookup) : State :=
  let d := s.rs.domain k.ask.domain
  let done (t : State) (r : Result) := t.handBack k.source k.ask.bucket r
  if !d.enabled then done s (.unmatched .discard .noDomain)
  else match s.rs.longestMatch k.ask.domain k.ask.key with
    | none => done s (.unmatched d.miss.verdict .noRoute)
    | some r =>
      let t := s.setRs (s.rs.markMatch k.ask.mark r)
      match r.target with
      | .discard => done t (.matchedNoExit .discard .route r.ident.len r.tag)
      | .control => done t (.matchedNoExit .control .route r.ident.len r.tag)
      | _ => t.setSu { t.su with lookup := some { k with stage := .resolving r.ident.len r.target r.tag d.miss } }

/-! ## The resolution claim (R65, R66, R118, R119) -/

/-- The exit that a bucket of a set's map names. -/
def PathTable.bucketExit (pt : PathTable) (p : PathSet) (b : Nat) : Option Exit :=
  ((p.map[b]?).getD none).bind pt.exit?

/-- The exit that bucket `b` of a set's backup names, when the set names a backup and it is ACTIVE (R65, step 3). -/
def PathTable.backupExit (pt : PathTable) (p : PathSet) (b : Nat) : Option Exit :=
  (p.backup.bind pt.set?).bind fun q => pt.bucketExit q b

/-- Resolution of a target, as the result it gives; `live` is the effective state read for a direct exit (R65, R118,
R119). -/
def PathTable.resolve (pt : PathTable) (live : Bool) (b len : Nat) (target : Target) (tag : BitVec 16)
    (miss : DropVerdict) : Result :=
  let stale := Result.matchedNoExit miss.verdict .stale len tag
  match target with
  | .pathSet i =>
    match pt.set? i with
    | none => stale
    | some p =>
      match pt.bucketExit p b with
      | some e => .forward false len tag e
      | none =>
        match pt.backupExit p b with
        | some e => .forward true len tag e
        | none => .matchedNoExit p.emptyVerdict.verdict .noPath len tag
  | .exit i =>
    match pt.exit? i with
    | none => stale
    | some e =>
      if e.derivedUp live then .forward false len tag e
      else .matchedNoExit miss.verdict .noPath len tag
  | .discard => .matchedNoExit .discard .route len tag
  | .control => .matchedNoExit .control .route len tag

/-- The port whose effective state a resolution claim reads: that of an ACTIVE exit that the route targets directly (R84,
R119). -/
def PathTable.resolvePort (pt : PathTable) : Target → List (Fin 64)
  | .exit i => pt.portOf i
  | .pathSet _ | .discard | .control => []

/-- The resolution claim is in progress at the Path Table no more, and no read of it waits. -/
def State.finishResolution (s : State) (pmon : PortMonitor) : State :=
  (s.setPt { s.pt.withdraw .resolution with taken := none }).setPmon pmon

/-- The Path Table has taken the resolution claim: it reads what it needs and the SU hands the result back; or its read waits
at the port table, and the claim is TAKEN (R65, R84, R119). -/
def State.resolution (s : State) (source : Source) (ask : Ask) (len : Nat) (target : Target) (tag : BitVec 16)
    (miss : DropVerdict) : State :=
  let ports := s.pt.resolvePort target
  let r := s.pmon.readPorts ports
  if r.2.length < ports.length then
    (s.setPt { s.pt.withdraw .resolution with taken := some .resolution }).setPmon r.1
  else (s.finishResolution r.1).handBack source ask.bucket
    (s.pt.resolve (r.2.headD false) ask.bucket len target tag miss)

/-! ## The meanings -/

/-- PROBE (R125). -/
def execProbe (s : State) : Out := .next (runCommand 0x60 probeWork s)

/-- GRANT (R105, R106): the SU is free and a request is eligible. -/
def execGrant (s : State) : Out :=
  .next (if !s.working || s.su.lookup.isSome then s
    else match s.su.probe with
      | some a => s.setSu { s.su with lookup := some ⟨.probe, none, a, .matching⟩, probe := none }
      | none =>
        match s.chooseLane with
        | none => s
        | some (n, allowance) => s.grantLane n allowance)

/-- LOOKUP_CLAIM (R116). A step claim in progress is finished first (R16); a waiting command claim, and a waiting step claim
that 16 lookups have passed, are taken first (R17); passing a step claim counts. The lookup claim may pass a command that
the CU holds and whose claim is not presented: the manual leaves open when the CU presents it (DESIGN CHOICE,
notes/assumptions/13.md). -/
def execLookupClaim (s : State) : Out :=
  match s.su.lookup with
  | some ⟨source, tag, ask, .matching⟩ =>
    .next (if !s.working || !s.rsFree || s.commandAtRouteStore || (s.je.stepClaimWaits && Config.fairnessLimit ≤ s.rs.fairness) then s
      else
        (if s.je.stepClaimWaits then s.setRs { s.rs with fairness := s.rs.fairness + 1 } else s).lookupClaim
          ⟨source, tag, ask, .matching⟩)
  | _ => .next s

/-- RESOLUTION_CLAIM (R65, R119): the SU presents the claim, if it has not yet, and the Path Table takes it, or finishes the
one that is TAKEN; while another is in progress there, or one presented before waits, it waits (R36, R117;
notes/assumptions/13.md). Of a TAKEN claim whose lookup RESTART has ended, the SU discards the answer (R128). -/
def execResolutionClaim (s : State) : Out :=
  match s.su.lookup with
  | some ⟨source, _, ask, .resolving len target tag miss⟩ =>
    .next (if !s.working then s
      else if s.pt.taken == some .resolution || s.ptAdmits .resolution then s.resolution source ask len target tag miss
      else s.setPt (s.pt.offer .resolution))
  | _ =>
    .next (if s.serving && s.pt.taken == some .resolution && s.pmon.admits .read then
      s.finishResolution (s.pmon.withdraw .read)
    else s)

end Sys2Proof.Machine
end

