-- ==== Sys2Proof/Machine/Jobs.lean ====
section
/-! DEFINITION. The Job Engine (chapter 7): JOB START, the SURVEY and REFILL steps, pacing, endings, and the job
commands. -/

namespace Sys2Proof.Machine

def State.slot (s : State) (n : Fin 4) : Slot := s.je.slots[n]

def State.setSlot (s : State) (n : Fin 4) (x : Slot) : State :=
  s.setJe { s.je with slots := s.je.slots.set n x n.isLt }

def JobSpec.kind : JobSpec → JobKind
  | .survey _ _ => .survey
  | .refill _ _ => .refill

/-- The pin of a job: the new target of REPOINT (R138). -/
def JobSpec.pin : JobSpec → Option Target
  | .survey _ (.repoint t) => some t
  | _ => none

/-! ## Pacing (R140) -/

/-- The slot's claim for a step is WAITING or TAKEN. -/
def Slot.stepping : Slot → Bool
  | .running j => j.step != .none
  | _ => false

/-- The slot is eligible to step: RUNNING with outcome absent and step NONE (R140). -/
def Slot.eligible : Slot → Bool
  | .running j => j.outcome.isNone && j.step == .none
  | _ => false

/-- The slot whose step is WAITING or TAKEN; there is at most one. -/
def JobEngine.stepping? (je : JobEngine) : Option (Fin 4) := fours.find? fun n => je.slots[n].stepping

/-- When no step is WAITING or TAKEN, the JE chooses the first eligible slot after the last slot stepped and presents
its claim (R140); `together` says that a pin claim was presented at the same moment. -/
def State.presentStep (s : State) (together : Bool) : State :=
  if !s.working || s.je.stepping?.isSome then s
  else match (cyclicAfter s.je.last).find? fun n => (s.slot n).eligible with
    | none => s
    | some n =>
      match s.slot n with
      | .running j =>
        let t := s.setJe { s.je with slots := s.je.slots.set n (.running { j with step := .waiting }) n.isLt, last := n }
        match j.spec with
        | .survey _ _ => t
        | .refill _ _ => t.setPt (t.pt.present (.refill n) together)
      | _ => s

/-! ## Endings (R144) -/

/-- The slot becomes ENDED and its JOB record is posted, in one act (R144, R153). -/
def State.endSlot (s : State) (n : Fin 4) : State :=
  match s.slot n with
  | .running j =>
    match j.outcome with
    | some o => (s.setSlot n (.ended j)).post (.job n j.spec.kind o j.visited j.matched j.acted)
    | none => s
  | _ => s

/-- The slot's ending waits for a pin claim (R144). -/
def Slot.needsPin : Slot → Bool
  | .running j => j.outcome.isSome && j.step == .none && j.spec.pin.isSome
  | _ => false

/-- The ending of a job whose outcome is decided begins, once its step is NONE (R143, R144). -/
def State.beginEnding (s : State) (n : Fin 4) : State :=
  if (s.slot n).needsPin then s.setPt (s.pt.present (.pin n))
  else match s.slot n with
    | .running j => if j.step == .none then s.endSlot n else s
    | _ => s

/-- The answer words of JOB CANCEL and the fields of the JOB record (R145, R198). -/
def Job.countWords (j : Job) : List Word := [wordOf j.visited, wordOf j.matched, wordOf j.acted]

/-- The progress of a JOB CANCEL: answered once the slot is ENDED (R145). -/
def State.cancelProgress (s : State) (n : Fin 4) : Progress :=
  match s.slot n with
  | .ended j =>
    .answered ⟨.ok, pack8 (match j.outcome with | some o => o.code | none => 0) 0 0 0 :: j.countWords⟩
  | _ => .cancelling n

/-- A JOB CANCEL that waits for a slot that is now ENDED is answered (R145). -/
def State.settleCancel (s : State) : State :=
  match s.cu with
  | .busy ws (.cancelling n) => s.setCu (.busy ws (s.cancelProgress n))
  | _ => s

/-- What follows the finish of a slot's step claim or refill claim: the slot with what the claim reported, the ending
if the outcome is decided, and the next choice (R133, R139, R140, R143). -/
def State.finishStep (s : State) (n : Fin 4) (j : Job) : State :=
  let t := ((s.setSlot n (.running { j with step := .none })).beginEnding n).settleCancel
  t.presentStep (t.slot n).needsPin

/-- The step found the job's end: DONE, if the outcome is still absent (R143). -/
def Job.reachEnd (j : Job) : Job := { j with outcome := some (j.outcome.getD .done) }

/-! ## SURVEY steps (R133 to R138) -/

/-- The route lies in the span of the job (R133). -/
def Filter.inSpan (f : Filter) (r : Route) : Bool :=
  match f.domain with
  | none => true
  | some d => r.ident.domain == d

/-- The first route of the job's span, or the successor of the cursor, when it lies in the span (R133). -/
def RouteStore.surveyed (rs : RouteStore) (f : Filter) : Option Cursor → Option Route
  | some (.route i) => (rs.successor i).filter f.inSpan
  | _ => rs.routes.find? f.inSpan

/-- A field of the filter that is absent, or agrees. -/
def absentOr {α : Type} (x : Option α) (agrees : α → Bool) : Bool :=
  match x with
  | none => true
  | some a => agrees a

/-- The route matches the filter (R135). -/
def Filter.accepts (f : Filter) (r : Route) : Bool :=
  absentOr f.domain (r.ident.domain == ·) && absentOr f.family (r.family == ·)
    && absentOr f.cover (fun c => c.2 ≤ r.ident.len && c.1.agrees c.2 r.ident.key)
    && absentOr f.target (r.target == ·) && absentOr f.cls (r.cls == ·)

/-- Whether the action acts on a matched route (R136, "Acted on when"). -/
def Action.acts (a : Action) (r : Route) : Bool :=
  match a with
  | .count => false
  | .retire => true
  | .repoint t => r.target != t
  | .sweep => r.cls == .learned
  | .clearMarks => r.mark || 0 < r.hits

/-- The effect of the action on a matched route on which it acts (R136, R138). -/
def State.applyAction (s : State) (a : Action) (r : Route) : State :=
  match a with
  | .count => s
  | .retire => s.withdrawRoute r
  | .repoint t =>
    (s.setPt ((s.pt.countRoute (· + 1) t).releaseRoute r.target)).setRs
      (s.rs.updRoute r.ident fun x => { x with target := t })
  | .sweep =>
    if r.mark then s.setRs (s.rs.updRoute r.ident fun x => { x with mark := false }) else s.withdrawRoute r
  | .clearMarks => s.setRs (s.rs.updRoute r.ident Route.resetActivity)

/-- The counts and the cursor after a visit of a route (R133, R137). -/
def Job.visit (j : Job) (c : Cursor) (isMatch isActed : Bool) : Job :=
  { j with cursor := some c, visited := satInc Config.count32 j.visited,
           matched := if isMatch then satInc Config.count32 j.matched else j.matched,
           acted := if isActed then satInc Config.count32 j.acted else j.acted }

/-- The action, acting on a route, changes references, with a claim on the Path Table of its own (R36, R138). -/
def Action.refers (a : Action) (r : Route) : Bool :=
  match a with
  | .retire => r.target.counted
  | .sweep => !r.mark && r.target.counted
  | .repoint _ => true
  | .count | .clearMarks => false

/-- What one SURVEY step does to the tables, and the job with what the step reports (R133). -/
def State.survey (s : State) (j : Job) (f : Filter) (a : Action) : State × Job :=
  match s.rs.surveyed f j.cursor with
  | none => (s, j.reachEnd)
  | some r =>
    let acts := f.accepts r && a.acts r
    (if acts then s.applyAction a r else s, j.visit (.route r.ident) (f.accepts r) acts)

/-- The SURVEY step changes references (R36). -/
def RouteStore.stepRefers (rs : RouteStore) (j : Job) (f : Filter) (a : Action) : Bool :=
  (rs.surveyed f j.cursor).any fun r => f.accepts r && a.acts r && a.refers r

/-! ## REFILL steps (R68, R139) -/

/-- The set ID of the next step: the first of the range, or the one after the cursor (R139). -/
def refillId (first : Nat) : Option Cursor → Nat
  | some (.set i) => i + 1
  | _ => first

/-- What one REFILL step does to the Path Table, and the job with what the step reports (R68, R139). -/
def PathTable.refill (pt : PathTable) (j : Job) (first last : Nat) : PathTable × Job :=
  let i := refillId first j.cursor
  let stepped := fun (j : Job) => if i = last then j.reachEnd else j
  match pt.set? i with
  | none => (pt, stepped { j with cursor := some (.set i) })
  | some p => (pt.updSet i (·.fill), stepped (j.visit (.set i) true (0 < bucketsChanged p.map (fillMap p.members))))

/-! ## JOB START (R131, R132) -/

/-- The presence bit of a filter field: bit 8 domain, 9 family, 10 cover, 11 target, 12 class (R198). -/
def present (ps : List Word) (b : Nat) : Bool := bits (param ps 0) b b == 1

/-- The cover of a SURVEY's filter, which needs the filter's family (R131). -/
def coverOf (ps : List Word) (family : Option Family) : Option (Key × Nat) := do
  let f ← family
  let len ← atMost f.width (bits (param ps 0) 7 0)
  some (keyAt ps 4 f, len)

/-- The filter of a SURVEY (R131, R198); a field whose presence bit is 0 is not read. -/
def filterOf (ps : List Word) : Option Filter := do
  let domain ← whenSelected (present ps 8) (inRange 16 (bits (param ps 1) 31 24))
  let family ← whenSelected (present ps 9) (familyOf (bits (param ps 1) 23 16))
  let cover ← whenSelected (present ps 10) (coverOf ps family)
  let target ← whenSelected (present ps 11) (targetOf (param ps 2))
  let cls ← whenSelected (present ps 12) (classOf (bits (param ps 1) 15 8))
  some ⟨domain, family, cover, target, cls⟩

/-- The action of a SURVEY with its new target, which REPOINT alone carries (R131). -/
def actionOf (ps : List Word) : Option Action :=
  let t := param ps 3
  if bits (param ps 0) 23 16 = 3 then
    match targetOf t with
    | some (.pathSet i) => some (.repoint (.pathSet i))
    | some (.exit i) => some (.repoint (.exit i))
    | _ => none
  else if bits t 31 24 ≠ 0 then none
  else match bits (param ps 0) 23 16 with
    | 1 => some .count
    | 2 => some .retire
    | 4 => some .sweep
    | 5 => some .clearMarks
    | _ => none

/-- The kind of a job, defined only when it agrees with the parameter count (R198), and its arguments; none for
BADARG (R131). -/
def jobSpecOf (ps : List Word) : Option JobSpec :=
  if bits (param ps 0) 31 24 = 1 ∧ ps.length = 8 then do
    let f ← filterOf ps
    let a ← actionOf ps
    some (.survey f a)
  else if bits (param ps 0) 31 24 = 2 ∧ ps.length = 2 then do
    let first ← atMost Config.maxSetId (bits (param ps 1) 31 16)
    let last ← atMost Config.maxSetId (bits (param ps 1) 15 0)
    if first ≤ last then some (.refill first last) else none
  else none

/-- The cover key has no one beyond the cover length (R131). -/
def JobSpec.keyOk : JobSpec → Bool
  | .survey f _ => absentOr f.cover fun c => c.1.zeroBeyond c.2
  | .refill _ _ => true

/-- A job as JOB START loads it (R132, step 4). -/
def JobSpec.start (spec : JobSpec) : Job := ⟨spec, none, 0, 0, 0, .none, none⟩

/-- The pin take of a REPOINT job (R132, step 3); fails when the new target is FREE. -/
def JobSpec.takePin (spec : JobSpec) (pt : PathTable) : Option PathTable :=
  match spec.pin with
  | none => some pt
  | some t => pt.takePin t

/-- JOB START (R131, R132). The first step is presented at the JE's next choice (R140). -/
def jobStartWork (ps : List Word) (s : State) : Reply :=
  match jobSpecOf ps with
  | none => refuse s .badArg
  | some spec =>
    if !spec.keyOk then refuse s .badKey
    else match fours.find? fun n => s.slot n == .idle with
      | none => refuse s .noSlot
      | some n =>
        match spec.takePin s.pt with
        | none => refuse s .noTarget
        | some pt =>
          answerOk (((s.setPt pt).setSlot n (.running spec.start)).presentStep false) [pack8 n 0 0 0]

/-! ## JOB CANCEL (R145) -/

/-- A step claim or refill claim that is WAITING is withdrawn; a withdrawn step claim returns the fairness count to 0
(R17, R141, R145). -/
def State.withdrawStep (s : State) (n : Fin 4) : State :=
  match s.slot n with
  | .running j =>
    if j.step == .waiting then
      let t := s.setSlot n (.running { j with step := .none })
      match j.spec with
      | .survey _ _ => t.setRs { t.rs with fairness := 0 }
      | .refill _ _ => t.setPt (t.pt.withdraw (.refill n))
    else s
  | _ => s

/-- The outcome of a RUNNING slot becomes CANCELLED (R145). -/
def State.decideCancelled (s : State) (n : Fin 4) : State :=
  match s.slot n with
  | .running j => s.setSlot n (.running { j with outcome := some .cancelled })
  | _ => s

/-- JOB CANCEL (R145). -/
def jobCancelWork (ps : List Word) (s : State) : Reply :=
  match inRange 4 (bits (param ps 0) 31 24) with
  | none => refuse s .badArg
  | some n =>
    match s.slot n with
    | .running j =>
      if j.outcome.isSome then (s, .cancelling n)
      else
        let t := ((s.withdrawStep n).decideCancelled n).beginEnding n
        (t.presentStep (t.slot n).needsPin, t.cancelProgress n)
    | _ => refuse s .notRunning

/-! ## JOB READ (R147) -/

/-- The filter's words as JOB START lays them out, absent fields as 0 (R194, R198, notes/assumptions/9.md). -/
def surveyWords (f : Filter) (a : Action) : List Word :=
  [pack8 JobKind.survey.code a.code
      (bitCode f.domain.isSome + 2 * bitCode f.family.isSome + 4 * bitCode f.cover.isSome
        + 8 * bitCode f.target.isSome + 16 * bitCode f.cls.isSome)
      (match f.cover with | some c => c.2 | none => 0),
    pack8 (match f.domain with | some d => d.val | none => 0) (match f.family with | some x => x.code | none => 0)
      (match f.cls with | some c => c.code | none => 0) 0,
    (match f.target with | some t => t.word | none => 0#32),
    (match a with | .repoint t => t.word | _ => 0#32)]
  ++ (match f.cover with
    | some (.narrow k, _) => [k, 0#32, 0#32, 0#32]
    | some (.wide k, _) => (Key.wide k).toWords
    | none => [0#32, 0#32, 0#32, 0#32])

/-- The cursor of a SURVEY: an identity word and four key words, a NARROW key in the first of them (R198). -/
def cursorWords : Option Cursor → List Word
  | some (.route ⟨d, .narrow k, len⟩) => [Identity.word ⟨d, .narrow k, len⟩, k, 0#32, 0#32, 0#32]
  | some (.route ⟨d, .wide k, len⟩) => Identity.word ⟨d, .wide k, len⟩ :: (Key.wide k).toWords
  | _ => [0#32, 0#32, 0#32, 0#32, 0#32]

/-- The answer words of JOB READ for a RUNNING (1) or ENDED (2) slot (R198). -/
def Job.readWords (j : Job) (state : Nat) : List Word :=
  pack8 state j.spec.kind.code (match j.outcome with | some o => o.code | none => 0) (bitCode j.cursor.isSome)
    :: (j.countWords ++
      match j.spec with
      | .refill first last => [pack16 first last, wordOf (match j.cursor with | some (.set i) => i | _ => 0)]
      | .survey f a => surveyWords f a ++ cursorWords j.cursor)

/-- JOB READ (R147). -/
def jobReadWork (ps : List Word) (s : State) : Reply :=
  match inRange 4 (bits (param ps 0) 31 24) with
  | none => refuse s .badArg
  | some n =>
    match s.slot n with
    | .idle => answerOk s [0#32]
    | .running j => answerOk s (j.readWords 1)
    | .ended j => answerOk s (j.readWords 2)

/-! ## A claim in progress (R16, R36, R140) -/

/-- The Route Store takes a waiting step claim next: no command claim waits there, and no lookup claim that 16 have not yet
passed it (R17). -/
def State.stepGoesNext (s : State) : Bool :=
  !s.commandAtRouteStore && !(s.su.claimWaits && s.rs.fairness < Config.fairnessLimit)

/-- The owning block takes the step's claim that waits, when no other claim goes before it: the step is TAKEN until
STEP_CLAIM or REFILL_CLAIM finishes it (R16, R17, R36, R140). -/
def State.takeStep (s : State) : State :=
  match s.je.stepping? with
  | none => s
  | some n =>
    match s.slot n with
    | .running j =>
      if s.working && j.step == .waiting then
        let taken := Slot.running { j with step := .taken }
        match j.spec with
        | .survey _ _ =>
          if s.stepGoesNext then (s.setRs { s.rs with fairness := 0 }).setSlot n taken else s
        | .refill _ _ =>
          if s.ptTakes (.refill n) then (s.setPt (s.pt.withdraw (.refill n))).setSlot n taken else s
      else s
    | _ => s

/-! ## A job that RESTART has dropped (R149) -/

/-- The claim in progress of a job that RESTART has dropped is finished: its report is discarded. -/
def JobEngine.finishDropped (je : JobEngine) (taken : Job → Bool) : JobEngine :=
  { je with dropped := je.dropped.map fun j => if taken j then { j with step := .none } else j }

/-! ## The meanings -/

/-- JOB_START (R132). -/
def execJobStart (s : State) : Out := .next (runCommand 0x70 jobStartWork s)

/-- JOB_CANCEL (R145). -/
def execJobCancel (s : State) : Out := .next (runCommand 0x71 jobCancelWork s)

/-- JOB_READ (R147). -/
def execJobRead (s : State) : Out := .next (runCommand 0x72 jobReadWork s)

/-- The Route Store has taken a step claim and makes the step, with the references it changes, if it does, within a reference
claim on the Path Table: the job with what the step reports; none while the reference claim waits there (R16, R36). -/
def State.makeStep (s : State) (j : Job) (f : Filter) (a : Action) : State × Option Job :=
  let t := s.setRs { s.rs with fairness := 0 }
  let refers := s.rs.stepRefers j f a
  if refers && !s.ptAdmits .reference then (t.setPt (s.pt.offer .reference), none)
  else
    let r := (if refers then t.setPt (s.pt.withdraw .reference) else t).survey j f a
    (r.1, some r.2)

/-- What the JE does with a step that the Route Store makes: it applies what the step reports, or the step is TAKEN (R133,
R140). -/
def State.stepMade (s : State) (n : Fin 4) (j : Job) : Option Job → State
  | some k => s.finishStep n k
  | none => s.setSlot n (.running { j with step := .taken })

/-- Of a job that RESTART has dropped the JE discards the report (R149). -/
def State.droppedMade (s : State) : Option Job → State
  | some _ => s.setJe (s.je.finishDropped Job.surveyTaken)
  | none => s

/-- STEP_CLAIM (R133). A waiting command claim goes before a waiting step claim, and so does a waiting lookup claim unless
16 have passed it (R17). A step that changes references does so within a reference claim; while that waits at the Path Table,
the step is TAKEN (R16, R36). Of a TAKEN step whose job RESTART has dropped, the report is discarded (R149). -/
def execStepClaim (s : State) : Out :=
  match s.je.stepping? with
  | none =>
    match s.je.dropped.find? Job.surveyTaken with
    | none => .next s
    | some j =>
      match j.spec with
      | .survey f a =>
        .next (if s.serving then (s.makeStep j f a).1.droppedMade (s.makeStep j f a).2 else s)
      | .refill _ _ => .next s
  | some n =>
    match s.slot n with
    | .running j =>
      match j.spec with
      | .survey f a =>
        .next (if s.working && (j.step == .taken || s.stepGoesNext) then
          (s.makeStep j f a).1.stepMade n j (s.makeStep j f a).2
        else s)
      | .refill _ _ => .next s
    | _ => .next s

/-- REFILL_CLAIM (R139). Of a TAKEN claim whose job RESTART has dropped, the report is discarded (R149). -/
def execRefillClaim (s : State) : Out :=
  match s.je.stepping? with
  | none =>
    match s.je.dropped.find? Job.refillTaken with
    | none => .next s
    | some j =>
      match j.spec with
      | .refill first last =>
        .next (if s.serving then
          (s.setPt (s.pt.refill j first last).1).setJe (s.je.finishDropped Job.refillTaken)
        else s)
      | .survey _ _ => .next s
  | some n =>
    match s.slot n with
    | .running j =>
      match j.spec with
      | .refill first last =>
        .next (if s.working && (j.step == .taken || s.ptTakes (.refill n)) then
          let r := (s.pt.withdraw (.refill n)).refill j first last
          (s.setPt r.1).finishStep n r.2
        else s)
      | .survey _ _ => .next s
    | _ => .next s

/-- PIN_CLAIM (R144): the pin is released, and the slot becomes ENDED with its JOB posting. -/
def execPinClaim (n : Fin 4) (s : State) : Out :=
  match s.slot n with
  | .running j =>
    match j.spec.pin with
    | some t =>
      .next (if s.working && (s.slot n).needsPin && s.ptTakes (.pin n) then
        ((((s.setPt ((s.pt.withdraw (.pin n)).releasePin t)).endSlot n).settleCancel).presentStep false)
      else s)
    | none => .next s
  | _ => .next s

end Sys2Proof.Machine
end

