-- ==== Sys2Proof/Machine/Attention.lean ====
section
/-! DEFINITION. The Attention Unit's commands (chapter 8): COLLECT and ATTENTION MASK. Taking a posting is in Ops. -/

namespace Sys2Proof.Machine

/-- The answer words of COLLECT for a record, with the number of records left (R199). -/
def Record.words (left : Nat) : Record → List Word
  | .port p live c => [pack8 1 p 0 left, pack8 (bitCode live) 0 0 c]
  | .job n k o v m a => [pack8 2 n 0 left, pack8 k.code o.code 0 0, wordOf v, wordOf m, wordOf a]
  | .lane n cs c => [pack8 3 n 0 left, pack8 cs.code 0 0 c]
  | .space u => [pack8 4 0 0 left, wordOf u]

/-- Removing a JOB record makes its slot IDLE in the same act (R146, R159). -/
def State.freeSlot (s : State) : Record → State
  | .job n .. => s.setSlot n .idle
  | _ => s

/-- COLLECT (R158). -/
def collectWork (_ps : List Word) (s : State) : Reply :=
  match s.au.list with
  | [] => refuse s .empty
  | r :: rest => answerOk ((s.setAu { s.au with list := rest }).freeSlot r) (r.words rest.length)

/-- The mask settings' word: bit 0 PORT, bit 1 LANE, bit 2 SPACE (R194, R198). -/
def AttentionUnit.maskWord (au : AttentionUnit) : Word :=
  wordOf (bitCode au.maskPort + 2 * bitCode au.maskLane + 4 * bitCode au.maskSpace)

/-- ATTENTION MASK (R156). -/
def attentionMaskWork (ps : List Word) (s : State) : Reply :=
  let w := param ps 0
  match maskSelectionOf (bits w 31 24), maskSelectionOf (bits w 23 16), maskSelectionOf (bits w 15 8) with
  | some p, some l, some sp =>
    let au := { s.au with maskPort := p.getD s.au.maskPort, maskLane := l.getD s.au.maskLane,
                          maskSpace := sp.getD s.au.maskSpace }
    answerOk (s.setAu au) [au.maskWord]
  | _, _, _ => refuse s .badArg

/-- COLLECT (R158). -/
def execCollect (s : State) : Out := .next (runCommand 0x80 collectWork s)

/-- ATTENTION_MASK (R156). -/
def execAttentionMask (s : State) : Out := .next (runCommand 0x81 attentionMaskWork s)

end Sys2Proof.Machine
end

