-- ==== Sys2Proof/Machine/Exits.lean ====
section
/-! DEFINITION. The exit commands of chapter 2. -/

namespace Sys2Proof.Machine

/-- EXIT CREATE's record from its parameter words (R39, R196). The VLAN value is read only when it is present. -/
def exitCreateFields (ps : List Word) : Option Exit := do
  let id ← exitIdOf (param ps 0)
  let enabled ← enabledOf (bits (param ps 0) 15 8)
  let port ← inRange 64 (bits (param ps 0) 7 0)
  let present ← bitOf (bits (param ps 3) 31 24)
  let vlan ← whenSelected present (vlanOf (bits (param ps 2) 15 0))
  let mtu ← mtuOf (bits (param ps 3) 15 0)
  some ⟨id, enabled, port, addrOf (param ps 1) (param ps 2), vlan, mtu, 0, 0, 0, []⟩

/-- EXIT CREATE (R39). -/
def exitCreateWork (ps : List Word) (s : State) : Reply :=
  match exitCreateFields ps with
  | none => refuse s .badArg
  | some e =>
    if (s.pt.exit? e.id).isSome then refuse s .exists
    else answerOk (s.setPt { s.pt with exits := insertBy Exit.id e s.pt.exits }) []

/-- The selected fields of EXIT CHANGE; for the VLAN, `some none` makes it absent. -/
structure ExitChange where
  port : Option (Fin 64)
  addr : Option (BitVec 48)
  vlan : Option (Option Nat)
  mtu : Option Nat
  deriving DecidableEq, Repr

/-- EXIT CHANGE's fields (R40, R196). A field that is kept is not read (notes/assumptions/7.md). -/
def exitChangeFields (ps : List Word) : Option (Nat × ExitChange) := do
  let id ← exitIdOf (param ps 0)
  let selPort ← bitOf (bits (param ps 1) 31 24)
  let selAddr ← bitOf (bits (param ps 1) 23 16)
  let selVlan ← selectionOf (bits (param ps 1) 15 8)
  let selMtu ← bitOf (bits (param ps 1) 7 0)
  let port ← whenSelected selPort (inRange 64 (bits (param ps 0) 7 0))
  let vlan ← whenSelected (selVlan == .write) (vlanOf (bits (param ps 3) 15 0))
  let mtu ← whenSelected selMtu (mtuOf (bits (param ps 4) 15 0))
  some (id, ⟨port, if selAddr then some (addrOf (param ps 2) (param ps 3)) else none,
    if selVlan == .keep then none else some vlan, mtu⟩)

/-- What EXIT CHANGE writes into the record (R40, step 2). -/
def ExitChange.apply (c : ExitChange) (e : Exit) : Exit :=
  { e with port := c.port.getD e.port, addr := c.addr.getD e.addr, vlan := c.vlan.getD e.vlan, mtu := c.mtu.getD e.mtu }

/-- What EXIT CHANGE, EXIT ENABLE or EXIT DISABLE does to the exit it names (R40, R41). -/
structure ExitWrite where
  id : Nat
  write : Exit → Exit

/-- The ports whose effective states the member updates of such a command read: the exit's port as now written, once for
each set of the user list (R40, step 3). -/
def ExitWrite.ports (c : ExitWrite) (pt : PathTable) : List (Fin 64) :=
  match pt.exit? c.id with
  | none => []
  | some e => e.users.map fun _ => (c.write e).port

/-- EXIT CHANGE's write, from its parameter words (R40). -/
def exitChangeWrite (ps : List Word) : Option ExitWrite := (exitChangeFields ps).map fun x => ⟨x.1, x.2.apply⟩

/-- EXIT ENABLE's and EXIT DISABLE's write (R41). -/
def exitAdminWrite (enabled : Bool) (ps : List Word) : Option ExitWrite :=
  (exitIdOf (param ps 0)).map fun id => ⟨id, fun e => { e with enabled := enabled }⟩

/-- Write an ACTIVE exit's fields and visit the members its user list names, in one claim (R40, R41); ABSENT when the
exit is FREE. -/
def changeExit (c : Option ExitWrite) (s : State) : Reply :=
  match c with
  | none => refuse s .badArg
  | some c =>
    match s.pt.exit? c.id with
    | none => refuse s .absent
    | some _ => s.withReads (c.ports s.pt) fun reads t =>
        answerOk (t.setPt ((t.pt.updExit c.id c.write).visitUsers reads c.id)) []

/-- EXIT CHANGE (R40). -/
def exitChangeWork (ps : List Word) (s : State) : Reply := changeExit (exitChangeWrite ps) s

/-- EXIT ENABLE (R41). -/
def exitEnableWork (ps : List Word) (s : State) : Reply := changeExit (exitAdminWrite true ps) s

/-- EXIT DISABLE (R41). -/
def exitDisableWork (ps : List Word) (s : State) : Reply := changeExit (exitAdminWrite false ps) s

/-- EXIT DELETE (R42). -/
def exitDeleteWork (ps : List Word) (s : State) : Reply :=
  match exitIdOf (param ps 0) with
  | none => refuse s .badArg
  | some id =>
    match s.pt.exit? id with
    | none => refuse s .absent
    | some e =>
      if 0 < e.references then refuse s .inUse
      else answerOk (s.setPt { s.pt with exits := s.pt.exits.filter (·.id != id) }) []

/-- The answer words of EXIT READ (R43, R196) for an exit whose port's effective state is `live`. -/
def Exit.readWords (e : Exit) (live : Bool) (start : Nat) : List Word :=
  let ahead := e.users.filter (start ≤ ·)
  let shown := ahead.take Config.usersPerRead
  [pack8 (enabledCode e.enabled) e.port (bitCode live) 0,
    e.addr.extractLsb' 16 32,
    pack16 (e.addr.extractLsb' 0 16).toNat (e.vlan.getD 0),
    wordOf (bitCode e.vlan.isSome * 2 ^ 24 + e.mtu),
    wordOf e.routeRefs,
    pack16 e.memberRefs e.pinRefs,
    pack8 shown.length (bitCode (Config.usersPerRead < ahead.length)) 0 0] ++ pairWords shown

/-- EXIT READ's exit ID and start (R43, R196). -/
def exitReadFields (ps : List Word) : Option (Nat × Nat) := do
  let id ← exitIdOf (param ps 0)
  let start ← atMost Config.maxSetId (bits (param ps 1) 15 0)
  some (id, start)

/-- EXIT READ (R43). -/
def exitReadWork (ps : List Word) (s : State) : Reply :=
  match exitReadFields ps with
  | none => refuse s .badArg
  | some (id, start) =>
    match s.pt.exit? id with
    | none => refuse s .absent
    | some e => s.withReads (s.pt.portOf id) fun reads t => answerOk t (e.readWords (reads.headD false) start)

/-! ## The meanings -/

/-- EXIT_CREATE (R39). -/
def execExitCreate (s : State) : Out := .next (runCommand 0x20 exitCreateWork s)

/-- EXIT_CHANGE (R40). -/
def execExitChange (s : State) : Out := .next (runCommand 0x21 exitChangeWork s)

/-- EXIT_ENABLE (R41). -/
def execExitEnable (s : State) : Out := .next (runCommand 0x22 exitEnableWork s)

/-- EXIT_DISABLE (R41). -/
def execExitDisable (s : State) : Out := .next (runCommand 0x23 exitDisableWork s)

/-- EXIT_DELETE (R42). -/
def execExitDelete (s : State) : Out := .next (runCommand 0x24 exitDeleteWork s)

/-- EXIT_READ (R43). -/
def execExitRead (s : State) : Out := .next (runCommand 0x25 exitReadWork s)

end Sys2Proof.Machine
end

