-- ==== Sys2Proof/Machine/Lanes.lean ====
section
/-! DEFINITION. The lookup lanes (chapter 5): link events, inbound messages, the ends of sends, and the lane commands. -/

namespace Sys2Proof.Machine

/-! ## Lane commands (R108 to R110) -/

/-- LANE ENABLE (R108). The answer is the link state after the claim; a signal already on the line is then taken at
once (R91, notes/assumptions/8.md). -/
def laneEnableWork (ps : List Word) (s : State) : Reply :=
  match inRange 4 (bits (param ps 0) 31 24) with
  | none => refuse s .badArg
  | some n =>
    if (s.lane n).link == .disabled then
      answerOk ((s.updLane n fun l => { l with link := .down }).detect n) [pack8 Link.down.code 0 0 0]
    else answerOk s [pack8 (s.lane n).link.code 0 0 0]

/-- LANE DISABLE (R108). -/
def laneDisableWork (ps : List Word) (s : State) : Reply :=
  match inRange 4 (bits (param ps 0) 31 24) with
  | none => refuse s .badArg
  | some n =>
    match (s.lane n).link with
    | .up => answerOk (s.leaveUp n .disabled) []
    | .down | .aligning => answerOk (s.updLane n fun l => { l with link := .disabled }) []
    | .disabled => answerOk s []

/-- The cause set and change count of the lane's LANE record in the list, or an empty set and 0 (R109). -/
def AttentionUnit.laneRecord (au : AttentionUnit) (n : Fin 4) : CauseSet × Nat :=
  (au.list.findSome? fun r => match r with | .lane m cs c => if m == n then some (cs, c) else none | _ => none).getD
    (CauseSet.empty, 0)

/-- The answer words of LANE READ (R109, R197). -/
def State.laneWords (s : State) (n : Fin 4) : List Word :=
  let l := s.lane n
  let current := s.su.current == n
  [pack8 l.link.code l.weight (bitCode current) (if current then s.su.allowance else 0),
    pack8 l.queue.length (l.queue.countP (·.status == .waiting)) l.held l.owed,
    pack8 l.reportsPending (s.au.laneRecord n).1.code 0 (s.au.laneRecord n).2,
    wordOf l.requestsTaken,
    wordOf l.resultsSent,
    pack16 l.overruns l.checkErrors,
    pack16 l.malformed 0]

/-- The five counters become 0 (R103, R109). -/
def Lane.clearCounters (l : Lane) : Lane :=
  { l with requestsTaken := 0, resultsSent := 0, overruns := 0, checkErrors := 0, malformed := 0 }

/-- LANE READ (R109): the counters are cleared, if asked, after they are read. -/
def laneReadWork (ps : List Word) (s : State) : Reply :=
  match inRange 4 (bits (param ps 0) 31 24) with
  | none => refuse s .badArg
  | some n =>
    answerOk (if bits (param ps 0) 16 16 = 1 then s.updLane n Lane.clearCounters else s) (s.laneWords n)

/-- LANE WEIGHT (R110). -/
def laneWeightWork (ps : List Word) (s : State) : Reply :=
  let w := bits (param ps 0) 23 16
  match inRange 4 (bits (param ps 0) 31 24) with
  | none => refuse s .badArg
  | some n =>
    if 1 ≤ w ∧ w ≤ 8 then answerOk (s.updLane n fun l => { l with weight := w }) [] else refuse s .badArg

/-! ## Inbound messages -/

/-- A lane takes an arrival only in UP (R91, R94), and only while the blocks run (R185). -/
def State.receives (s : State) (n : Fin 4) : Bool := s.running && (s.lane n).link == .up

/-- A LOOKUP is appended as a WAITING entry (R97). -/
def Lane.enqueue (tag : Byte) (ask : Option Ask) (l : Lane) : Lane :=
  { l with queue := l.queue ++ [⟨tag, ask, .waiting⟩], requestsTaken := satInc Config.count32 l.requestsTaken }

/-- An overrun is counted (R98). -/
def Lane.overrun (l : Lane) : Lane := { l with overruns := satInc Config.count16 l.overruns }

/-- A malformed message is counted (R96). -/
def Lane.countMalformed (l : Lane) : Lane := { l with malformed := satInc Config.count16 l.malformed }

/-- A LOOKUP whose credit has been taken is queued, or is an overrun when the queue is full (R97, R98). -/
def State.takeLookup (s : State) (n : Fin 4) (tag : Byte) (ask : Option Ask) : State :=
  if (s.lane n).queue.length < Config.queueLimit then s.updLane n (Lane.enqueue tag ask)
  else (s.updLane n Lane.overrun).post (.lane n .overrun)

/-! ## The meanings -/

/-- LANE_ENABLE (R108). -/
def execLaneEnable (s : State) : Out := .next (runCommand 0x50 laneEnableWork s)

/-- LANE_DISABLE (R108). -/
def execLaneDisable (s : State) : Out := .next (runCommand 0x51 laneDisableWork s)

/-- LANE_READ (R109). -/
def execLaneRead (s : State) : Out := .next (runCommand 0x52 laneReadWork s)

/-- LANE_WEIGHT (R110). -/
def execLaneWeight (s : State) : Out := .next (runCommand 0x53 laneWeightWork s)

/-- SIGNAL_DETECTED (R91): the signal is on the line, and a DOWN lane goes to ALIGNING. -/
def execSignalDetected (n : Fin 4) (s : State) : Out :=
  let t := s.updLane n fun l => { l with signal := true }
  .next (if s.running then t.detect n else t)

/-- ALIGNMENT_COMPLETE (R91, R92): an ALIGNING lane enters UP and begins to send CREDIT 32. -/
def execAlignmentComplete (n : Fin 4) (s : State) : Out :=
  .next (if s.running && (s.lane n).link == .aligning then
    s.updLane n fun l => { l with link := .up, held := 0, owed := Config.creditLimit }.startNext
  else s)

/-- SIGNAL_LOST (R91, R93): from UP the lane leaves UP with a LINKLOST posting, whether signal or alignment is lost;
from ALIGNING the loss of the signal moves it to DOWN. A lane that lost only its alignment finds its signal present. -/
def execSignalLost (n : Fin 4) (cause : LossCause) (s : State) : Out :=
  let t := s.updLane n fun l => { l with signal := l.signal && cause == .alignment }
  if !s.running then .next t
  else match (s.lane n).link with
    | .up => .next (((t.leaveUp n .down).post (.lane n .linkLost)).detect n)
    | .aligning => .next (if cause = .signal then t.updLane n fun l => { l with link := .down } else t)
    | .down | .disabled => .next t

/-- LOOKUP_N (R94, R97, R98). -/
def execLookupN (n : Fin 4) (tag : Byte) (domain : Fin 16) (mark : Bool) (hash : BitVec 16) (key : BitVec 32)
    (s : State) : Out :=
  .next (if s.receives n then (s.updLane n Lane.spend).takeLookup n tag (some ⟨domain, mark, hash, .narrow key⟩) else s)

/-- LOOKUP_W (R94, R97, R98). -/
def execLookupW (n : Fin 4) (tag : Byte) (domain : Fin 16) (mark : Bool) (hash : BitVec 16) (key : BitVec 128)
    (s : State) : Out :=
  .next (if s.receives n then (s.updLane n Lane.spend).takeLookup n tag (some ⟨domain, mark, hash, .wide key⟩) else s)

/-- PORT (R98, R99): the report is handed to PMON, or is an overrun when the lane has 32 reports pending. PMON drops
a report handed to it during RESTART (R183). -/
def execPort (n : Fin 4) (p : Fin 64) (state : ReportedState) (s : State) : Out :=
  let t := s.updLane n Lane.spend
  .next (if !s.receives n then s
    else if Config.creditLimit ≤ (s.lane n).reportsPending then
      (t.updLane n Lane.overrun).post (.lane n .overrun)
    else
      let u := t.updLane n fun l => { l with reportsPending := l.reportsPending + 1 }
      if s.portsHeld then u
      else u.setPmon { u.pmon with waiting := joinLine (.report ⟨n, p, state, true⟩) u.pmon.waiting })

/-- CHECK_FAILURE (R94, R95). None of the message's fields is read. -/
def execCheckFailure (n : Fin 4) (_words : List Word) (s : State) : Out :=
  .next (if s.receives n then
    (s.updLane n fun l =>
      { l.spend with checkErrors := satInc Config.count16 l.checkErrors }.owe.startNext).post (.lane n .check)
  else s)

/-- MALFORMED_MESSAGE (R94, R96): a LOOKUP is queued with its malformed flag set and its tag; any other is discarded
and its credit owed. -/
def execMalformedMessage (n : Fin 4) (words : List Word) (s : State) : Out :=
  .next (if !s.receives n then s
    else if messageKind words = 1 then
      (s.updLane n fun l => l.spend.countMalformed).takeLookup n (messageTag words) none
    else s.updLane n fun l => l.spend.countMalformed.owe.startNext)

/-- CREDIT_SENT (R100): credits held rises by the count, and the next due message starts. -/
def execCreditSent (n : Fin 4) (s : State) : Out :=
  match (s.lane n).sending with
  | some (.credit c) =>
    .next (if s.receives n then
      s.updLane n fun l =>
        { l with sending := none, held := min (l.held + c) Config.creditLimit }.startNext
    else s)
  | _ => .next s

/-- RESULT_SENT (R100): the oldest entry leaves the queue, results sent and credits held rise by one, and the next due
message starts. -/
def execResultSent (n : Fin 4) (s : State) : Out :=
  match (s.lane n).sending with
  | some .result =>
    .next (if s.receives n then
      s.updLane n fun l =>
        { l with sending := none, queue := l.queue.tail, resultsSent := satInc Config.count32 l.resultsSent,
                 held := satInc Config.creditLimit l.held }.startNext
    else s)
  | _ => .next s

end Sys2Proof.Machine
end

