-- ==== Sys2Proof/Machine/Management.lean ====
section
/-! DEFINITION. The Management Port's transactions, the end of a work phase, the device commands and RESTART
(chapter 9). -/

namespace Sys2Proof.Machine

/-! ## The command catalogue (R195 to R198) -/

/-- The parameter counts a command code allows; none when the code is not defined (R166, R167). -/
def allowedCounts (code : Nat) : Option (List Nat) :=
  match code with
  | 0x10 | 0x11 => some [1]
  | 0x12 => some [4, 7]
  | 0x13 => some [5, 8]
  | 0x14 | 0x15 | 0x16 => some [2, 5]
  | 0x20 => some [4]
  | 0x21 => some [5]
  | 0x22 | 0x23 | 0x24 => some [1]
  | 0x25 => some [2]
  | 0x30 => some ((List.range 30).map (· + 2))
  | 0x31 => some [3]
  | 0x32 | 0x33 => some [1]
  | 0x34 | 0x35 | 0x36 => some [2]
  | 0x37 | 0x38 => some [1]
  | 0x40 | 0x41 => some [1]
  | 0x50 | 0x51 | 0x52 | 0x53 => some [1]
  | 0x60 => some [3, 6]
  | 0x70 => some [2, 8]
  | 0x71 | 0x72 => some [1]
  | 0x80 => some [0]
  | 0x81 => some [1]
  | 0x90 | 0x91 => some [0]
  | 0x92 => some [4]
  | 0x93 | 0x94 => some [0]
  | _ => none

/-! ## Transactions (R166 to R175) -/

/-- The MP enters ANSWERING with an answer it forms itself; the command buffer is emptied (R168). -/
def ManagementPort.answerSelf (m : ManagementPort) (code : ResultCode) : ManagementPort :=
  { m with state := .answering, command := [], answer := Answer.toWords ⟨code, []⟩ }

/-- A word is lost (R165). -/
def ManagementPort.lose (m : ManagementPort) : ManagementPort := { m with lost := true }

/-- A WORD READ that takes no answer word returns zero and sets LOST (R173). -/
def ManagementPort.readNothing (m : ManagementPort) : ManagementPort := { m.lose with readWord := 0#32 }

/-- The MP hands a command to the CU (R170). -/
def State.handOver (s : State) (words : List Word) : State :=
  (s.setMp { s.mp with state := .working, command := words }).setCu (.busy words .held)

/-- A complete command: handed to the CU when its parameter count is allowed, else BADLEN (R167, R170). -/
def State.completeCommand (s : State) (words : List Word) (counts : List Nat) : State :=
  if counts.contains (words.length - 1) then s.handOver words
  else s.setMp (s.mp.answerSelf .badLen)

/-- The first word of a command, taken in READY (R166). -/
def State.takeFirstWord (s : State) (w : Word) : State :=
  let m := { s.mp with lost := false }
  match allowedCounts (commandCode w) with
  | none => s.setMp (m.answerSelf .badCmd)
  | some counts =>
    if commandCount w = 0 then (s.setMp m).completeCommand [w] counts
    else s.setMp { m with state := .collecting, command := [w] }

/-- A parameter word, taken in COLLECTING (R167). -/
def State.takeParameter (s : State) (w : Word) : State :=
  let words := s.mp.command ++ [w]
  let first := words.headD 0#32
  if words.length ≤ commandCount first then s.setMp { s.mp with command := words }
  else s.completeCommand words ((allowedCounts (commandCode first)).getD [])

/-- WORD_WRITE (R166, R167, R169, R186). -/
def execWordWrite (w : Word) (s : State) : Out :=
  .next (match s.dev.phase with
    | .held => s
    | .clearing => s.setMp s.mp.lose
    | .running =>
      match s.mp.state with
      | .ready => s.takeFirstWord w
      | .collecting => s.takeParameter w
      | .working | .answering | .starting => s.setMp s.mp.lose)

/-- The next answer word is taken; after the last the port is READY (R172). -/
def ManagementPort.readNext (m : ManagementPort) : ManagementPort :=
  match m.answer with
  | [] => m.readNothing
  | w :: rest => { m with readWord := w, answer := rest, state := if rest.isEmpty then .ready else .answering }

/-- WORD_READ (R172, R173, R186). -/
def execWordRead (s : State) : Out :=
  .next (match s.dev.phase with
    | .held => s
    | .clearing => s.setMp s.mp.readNothing
    | .running => s.setMp (if s.mp.state = .answering then s.mp.readNext else s.mp.readNothing))

/-- ABORT (R174, R175, R186). -/
def execAbort (s : State) : Out :=
  .next (match s.dev.phase with
    | .held | .clearing => s
    | .running =>
      match s.mp.state with
      | .collecting => s.setMp { s.mp with state := .ready, command := [] }
      | .working => s.setMp { s.mp with abortHeld := true }
      | .answering => s.setMp { s.mp with state := .ready, answer := [] }
      | .ready | .starting => s)

/-- The end of a work phase at the MP: the answer is placed in the buffer, or discarded when an abort is held
(R170, R175). -/
def ManagementPort.handBack (m : ManagementPort) (a : Answer) : ManagementPort :=
  if m.abortHeld then { m with state := .ready, command := [], answer := [], abortHeld := false }
  else { m with state := .answering, command := [], answer := a.toWords }

/-! ## Device commands (R178 to R181) -/

/-- IDENTIFY (R178, R198). -/
def identifyWork (_ps : List Word) (s : State) : Reply :=
  answerOk s [0x0D570240#32, wordOf 1, wordOf 65536, pack16 8192 4096, pack8 16 64 4 4, wordOf 73]

/-- The values of SET PARAMETERS and READ PARAMETERS: hold-down, high and low watermark (R198). -/
def State.parameterWords (s : State) : List Word := [wordOf s.pmon.holdDown, wordOf s.rs.high, wordOf s.rs.low]

/-- SET PARAMETERS' selected values (R179, R198). -/
def setParametersFields (ps : List Word) : Option (Option Nat × Option (Nat × Nat)) := do
  let selHold ← bitOf (bits (param ps 0) 31 24)
  let selMarks ← bitOf (bits (param ps 0) 23 16)
  let hold ← whenSelected selHold (atMost Config.maxHoldDown (bits (param ps 1) 15 0))
  let high := (param ps 2).toNat
  let low := (param ps 3).toNat
  let marks ← whenSelected selMarks
    (if 1 ≤ high ∧ high ≤ 65536 ∧ low ≤ 65535 ∧ low < high then some (high, low) else none)
  some (hold, marks)

/-- The Route Store's claim: an accepted pair of watermarks is written and evaluated (R12). -/
def State.writeWatermarks (s : State) : Option (Nat × Nat) → State
  | none => s
  | some (high, low) => (s.setRs { s.rs with high := high, low := low }).evalWatermark

/-- The port table's claim: the hold-down time is written (R87). -/
def State.writeHoldDown (s : State) : Option Nat → State
  | none => s
  | some h => s.setPmon { s.pmon with holdDown := h }

/-- SET PARAMETERS (R179): the claim that can be taken first, the Route Store's unless a claim is in progress there; the
other comes with the end of the work phase, and between the two other events may be taken, but not at the Route Store,
where the claim left is presented and waits (R17, R171, notes/assumptions/12.md). -/
def setParametersWork (ps : List Word) (s : State) : Reply :=
  match setParametersFields ps with
  | none => refuse s .badArg
  | some (hold, marks) =>
    if s.rsFree then (s.writeWatermarks marks, .writingHold hold) else (s.writeHoldDown hold, .writingMarks marks)

/-- READ PARAMETERS (R180): its claim on the Route Store; its claim on the port table comes with the end of the work phase
(R171; that the Route Store's is the first is the model's, notes/assumptions/12.md). -/
def readParametersWork (_ps : List Word) (s : State) : Reply := (s, .readingHold s.rs.high s.rs.low)

/-- READ SPACE (R181). -/
def readSpaceWork (_ps : List Word) (s : State) : Reply :=
  answerOk s [wordOf s.rs.units, wordOf s.rs.high, wordOf s.rs.low, pack8 (bitCode s.rs.armed) 0 0 0]

/-! ## RESTART (R182 to R184) -/

/-- The Route Store's part: the watermarks are kept (R27). -/
def RouteStore.restart (rs : RouteStore) : RouteStore :=
  { RouteStore.reset with high := rs.high, low := rs.low }

/-- The Port Monitor's part: the hold-down time is kept, and reports not yet taken are dropped (R89). -/
def PortMonitor.restart (m : PortMonitor) : PortMonitor :=
  { m with ports := Vector.replicate 64 Port.reset, waiting := [] }

/-- A lane's part: its weight is kept (R112). What is on its line is not the device's to change. -/
def Lane.restart (l : Lane) : Lane := { Lane.reset with weight := l.weight, signal := l.signal }

/-- The Attention Unit's part: the mask is kept (R162). -/
def AttentionUnit.restart (au : AttentionUnit) : AttentionUnit := { au with list := [] }

/-- The Search Unit's part: IDLE, the arbiter at L0 with its allowance reloaded from L0's weight (R112, R128). -/
def State.restartSearch (s : State) : SearchUnit := ⟨none, none, 0, (s.lane 0).weight⟩

/-- A claim that WAITS is withdrawn; one that is TAKEN goes on. -/
def Job.withdrawn (j : Job) : Job := if j.step == .waiting then { j with step := .none } else j

/-- The Job Engine's part: every slot IDLE, the last slot stepped 3; of the jobs it drops, a TAKEN claim goes on and the pins
stand until the Path Table's part (R149). -/
def JobEngine.restart (je : JobEngine) : JobEngine :=
  { JobEngine.reset with dropped := je.jobs.map Job.withdrawn }

/-- The claim that waits at the Path Table is the JE's or the SU's, which their parts withdraw (R128, R149). -/
def PtClaim.ofUnits : PtClaim → Bool
  | .refill _ | .pin _ | .resolution => true
  | .visit _ | .command | .reference => false

/-- RESTART's parts in the lanes, the SU, the JE and the AU: what they have waiting at other blocks is withdrawn, and the
reports of the lanes are credited no more (R93, R112, R128, R149, R162). A waiting step claim that is withdrawn returns the
fairness count to 0 (R17). -/
def State.restartUnits (s : State) : State :=
  { s with
    rs := { s.rs with fairness := if s.je.stepClaimWaits then 0 else s.rs.fairness }
    pt := { s.pt with waiting := keepLine (!·.ofUnits) s.pt.waiting }
    pmon := fours.foldl PortMonitor.orphan s.pmon
    lanes := s.lanes.map Lane.restart
    su := s.restartSearch
    je := s.je.restart
    au := s.au.restart }

/-- RESTART's parts in the RS and the PT; the JE's dropped jobs have nothing in them any more (R27, R51). -/
def State.restartTables (s : State) : State :=
  { s with rs := s.rs.restart, pt := PathTable.reset, je := { s.je with dropped := [] } }

/-- RESTART's part in PMON; the visit claims of the passes that it drops wait no more (R89). -/
def State.restartPorts (s : State) : State := { s with pmon := s.pmon.restart, pt := { s.pt with waiting := [] } }

/-- RESTART (R182): the parts that no claim in progress holds up are made; once no claim is in progress at the Route Store or
the Path Table, the parts in those two (R27, R51); then RESTART's claim on the port table is presented, and its part there is
made when PMON takes it (R84, R89). Until all are made the row is made again. The MP and the CU have no part. -/
def restartWork (_ps : List Word) (s : State) : Reply :=
  let t := s.restartUnits
  if t.rsFree && t.ptFree then
    let u := t.restartTables
    if u.pmon.admits .command then (u.restartPorts, .restarting) else (u.setPmon (u.pmon.offer .command), .restartPorts)
  else (t, .restartLeft)

/-! ## The end of a work phase (R170, R171) -/

/-- The CU makes the claim that its command has left, when the block takes it, and forms the answer (R171); until then the
claim is presented and waits. -/
def State.lastClaim (s : State) : State :=
  match s.cu with
  | .busy ws (.counting p words changes) =>
    if s.ptAdmits .command then s.progressTo ws (.answered ⟨.ok, words ++ [s.pt.portWord p changes]⟩)
    else s.setPt (s.pt.offer .command)
  | .busy ws (.writingHold hold) =>
    if s.pmon.admits .command then
      let t := s.writeHoldDown hold
      t.progressTo ws (.answered ⟨.ok, t.parameterWords⟩)
    else s.setPmon (s.pmon.offer .command)
  | .busy ws (.readingHold high low) =>
    if s.pmon.admits .command then
      s.progressTo ws (.answered ⟨.ok, [wordOf s.pmon.holdDown, wordOf high, wordOf low]⟩)
    else s.setPmon (s.pmon.offer .command)
  | .busy ws (.writingMarks marks) =>
    if s.rsFree then
      let t := s.writeWatermarks marks
      t.progressTo ws (.answered ⟨.ok, t.parameterWords⟩)
    else s
  | _ => s

/-- WORK_PHASE_END (R170, R171): the CU makes the claim that is left, hands back the answer and is IDLE. -/
def execWorkPhaseEnd (s : State) : Out :=
  let t := s.lastClaim
  .next (if s.running then
    match t.cu with
    | .busy _ (.answered a) => (t.setMp (t.mp.handBack a)).setCu .idle
    | _ => t
  else s)

/-! ## The meanings -/

/-- IDENTIFY (R178). -/
def execIdentify (s : State) : Out := .next (runCommand 0x90 identifyWork s)

/-- RESTART (R182). -/
def execRestart (s : State) : Out := .next (runCommand 0x91 restartWork s)

/-- SET_PARAMETERS (R179). -/
def execSetParameters (s : State) : Out := .next (runCommand 0x92 setParametersWork s)

/-- READ_PARAMETERS (R180). -/
def execReadParameters (s : State) : Out := .next (runCommand 0x93 readParametersWork s)

/-- READ_SPACE (R181). -/
def execReadSpace (s : State) : Out := .next (runCommand 0x94 readSpaceWork s)

/-- No claim of one block waits at another (R184). -/
def State.quiet (s : State) : Bool :=
  s.pt.waiting.isEmpty && s.su.lookup.isNone && s.su.probe.isNone && s.je.stepping?.isNone && s.pmon.waiting.isEmpty

/-- RESTART_COMPLETE (R184): the CU forms the answer OK, and the holds end with the work phase. -/
def execRestartComplete (s : State) : Out :=
  match s.cu with
  | .busy ws .restarting => .next (if s.running && s.quiet then s.setCu (.busy ws (.answered ⟨.ok, []⟩)) else s)
  | _ => .next s

end Sys2Proof.Machine
end

