-- ==== Sys2Proof/Machine/Resets.lean ====
section
/-! DEFINITION. RESET#, the supplies and the start-up clearing (R185, R186, R200). -/

namespace Sys2Proof.Machine

/-- Work in flight is abandoned (R185): the command and its answer, the lookup, the jobs, the passes, the claims, the
reports and the messages; the attention list is empty from then on (R157). The tables stand until the clearing
(notes/assumptions/10.md). -/
def State.abandonWork (s : State) : State :=
  { s with
    mp := { s.mp with state := .starting, command := [], answer := [], abortHeld := false }
    cu := .idle
    pt := { s.pt with waiting := [], taken := none }
    pmon := { s.pmon with
      waiting := []
      ports := s.pmon.ports.map fun x => { x with timer := none, pass := .idle } }
    lanes := s.lanes.map fun l => { l.leaveUp with link := .disabled }
    su := { s.su with lookup := none, probe := none }
    je := JobEngine.reset
    au := { s.au with list := [] } }

/-- All supplies are at or above their thresholds (R200). -/
def Device.supplied (d : Device) : Bool := d.vddValid && d.vddioValid && d.vddlValid

/-- A hardware reset takes effect: every block is stopped (R185). -/
def State.takeReset (s : State) : State := s.abandonWork.setDev { s.dev with phase := .held }

/-- The start-up clearing begins once all supplies are valid and RESET# is high; LOST is 0 then (R186, R200). -/
def State.startClearing (s : State) : State :=
  if s.dev.phase == .held && !s.dev.resetLow && s.dev.supplied then
    (s.setMp { s.mp with lost := false }).setDev { s.dev with phase := .clearing }
  else s

/-- Every block at its hardware-reset values; LOST, the clock, the pins and what is on the lines are kept (R186). -/
def State.cleared (s : State) : State :=
  { s with
    mp := { ManagementPort.reset with lost := s.mp.lost, readWord := s.mp.readWord }
    cu := .idle
    rs := RouteStore.reset
    pt := PathTable.reset
    pmon := { PortMonitor.reset with now := s.pmon.now }
    lanes := s.lanes.map fun l => { Lane.reset with signal := l.signal }
    su := SearchUnit.reset
    je := JobEngine.reset
    au := AttentionUnit.reset
    dev := { s.dev with phase := .running } }

/-- HARDWARE_RESET (R200): a low level of 1 µs or longer is a hardware reset; a shorter one is ignored. -/
def execHardwareReset (lowNs : Nat) (s : State) : Out :=
  .next (if Config.resetFilterNs ≤ lowNs then (s.setDev { s.dev with resetLow := true }).takeReset else s)

/-- SUPPLY_INVALID (R200): acts as RESET# held low. -/
def execSupplyInvalid (rail : Rail) (s : State) : Out :=
  let d := match rail with
    | .vdd => { s.dev with vddValid := false }
    | .vddio => { s.dev with vddioValid := false }
    | .vddl => { s.dev with vddlValid := false }
  .next (s.setDev d).takeReset

/-- RESET_RELEASE (R186): the rising edge of RESET#. -/
def execResetRelease (s : State) : Out := .next (s.setDev { s.dev with resetLow := false }).startClearing

/-- SUPPLY_VALID (R200): all three supplies become valid. -/
def execSupplyValid (s : State) : Out :=
  .next (s.setDev { s.dev with vddValid := true, vddioValid := true, vddlValid := true }).startClearing

/-- STARTUP_CLEARING_END (R186): every block has reached its hardware-reset values, and the MP enters READY. -/
def execStartupClearingEnd (s : State) : Out := .next (if s.dev.phase == .clearing then s.cleared else s)

end Sys2Proof.Machine
end

