-- ==== Sys2Proof/Machine/Sets.lean ====
section
/-! DEFINITION. The path set, member and map commands of chapters 2 and 3. -/

namespace Sys2Proof.Machine

/-- SET CREATE's arguments: the set ID, policy, empty verdict, backup and member entries (R44). -/
structure SetCreate where
  id : Nat
  rejoin : RejoinPolicy
  emptyVerdict : DropVerdict
  backup : Option Nat
  entries : List (Nat × Nat)
  deriving DecidableEq, Repr

/-- SET CREATE's parameter words (R196). -/
def setCreateFields (ps : List Word) : Option SetCreate := do
  let id ← setIdOf (param ps 0)
  let rejoin ← rejoinOf (bits (param ps 0) 15 8)
  let verdict ← dropVerdictOf (bits (param ps 0) 7 0)
  let present ← bitOf (bits (param ps 1) 31 24)
  let backup ← whenSelected present (atMost Config.maxSetId (bits (param ps 1) 15 0))
  let entries ← readAll memberEntryOf (ps.drop 2)
  some ⟨id, rejoin, verdict, backup, entries⟩

/-- No two entries name the same exit. -/
def distinctExits : List (Nat × Nat) → Bool
  | [] => true
  | x :: xs => xs.all (·.1 != x.1) && distinctExits xs

/-- The member an entry becomes: recorded in its derived state of the moment, by the effective state that is read (R44, step
4). -/
def PathTable.newMember (pt : PathTable) (x : Nat × Nat) (live : Bool) : Member :=
  ⟨x.1, x.2, match pt.exit? x.1 with | some e => e.derivedUp live | none => false⟩

/-- The members of SET CREATE's entries, by the effective states read, one each (R44, step 4). -/
def SetCreate.members (c : SetCreate) (pt : PathTable) (reads : List Bool) : List Member :=
  (c.entries.zip reads).map fun x => pt.newMember x.1 x.2

/-- The record SET CREATE makes ACTIVE, with the map laid out by the fill rule (R44, steps 4 to 6). -/
def SetCreate.record (c : SetCreate) (pt : PathTable) (reads : List Bool) : PathSet :=
  let ms := c.members pt reads
  ⟨c.id, ms, fillMap ms, c.rejoin, c.emptyVerdict, c.backup, 0, 0, 0⟩

/-- The takes of SET CREATE, then the record (R44, steps 3 to 6). -/
def SetCreate.apply (c : SetCreate) (pt : PathTable) (reads : List Bool) : PathTable :=
  let taken := match c.backup with | some b => pt.takeBackup b | none => pt
  let joined := c.entries.foldl (fun t x => t.join c.id x.1) taken
  { joined with sets := insertBy PathSet.id (c.record pt reads) joined.sets }

/-- The checks of SET CREATE after its arguments', the first that fails deciding (R38, R44). -/
def SetCreate.refusal (c : SetCreate) (pt : PathTable) : Option ResultCode :=
  if Config.maxMembers < c.entries.length then some .setFull
  else if !distinctExits c.entries then some .dupMember
  else if c.backup == some c.id then some .selfRef
  else if (pt.set? c.id).isSome then some .exists
  else if c.backup.any (fun b => (pt.set? b).isNone) || c.entries.any (fun x => (pt.exit? x.1).isNone) then
    some .noTarget
  else none

/-- The ports whose effective states SET CREATE's new members read, in the order of the entries (R44, R84). -/
def SetCreate.ports (c : SetCreate) (pt : PathTable) : List (Fin 64) :=
  if (c.refusal pt).isSome then [] else c.entries.flatMap fun x => pt.portOf x.1

/-- SET CREATE (R44). -/
def setCreateWork (ps : List Word) (s : State) : Reply :=
  match setCreateFields ps with
  | none => refuse s .badArg
  | some c =>
    match c.refusal s.pt with
    | some code => refuse s code
    | none => s.withReads (c.ports s.pt) fun reads t => answerOk (t.setPt (c.apply t.pt reads)) []

/-- SET CHANGE's selected fields; for the backup, `some none` makes it absent (R45). -/
structure SetChange where
  rejoin : Option RejoinPolicy
  emptyVerdict : Option DropVerdict
  backup : Option (Option Nat)
  deriving DecidableEq, Repr

/-- SET CHANGE's parameter words (R196). A field that is kept is not read (notes/assumptions/7.md). -/
def setChangeFields (ps : List Word) : Option (Nat × SetChange) := do
  let id ← setIdOf (param ps 0)
  let selRejoin ← bitOf (bits (param ps 1) 31 24)
  let selVerdict ← bitOf (bits (param ps 1) 23 16)
  let selBackup ← selectionOf (bits (param ps 1) 15 8)
  let rejoin ← whenSelected selRejoin (rejoinOf (bits (param ps 2) 31 24))
  let verdict ← whenSelected selVerdict (dropVerdictOf (bits (param ps 2) 23 16))
  let backup ← whenSelected (selBackup == .write) (atMost Config.maxSetId (bits (param ps 2) 15 0))
  some (id, ⟨rejoin, verdict, if selBackup == .keep then none else some backup⟩)

/-- What SET CHANGE writes into the record. -/
def SetChange.apply (c : SetChange) (p : PathSet) : PathSet :=
  { p with rejoin := c.rejoin.getD p.rejoin, emptyVerdict := c.emptyVerdict.getD p.emptyVerdict,
           backup := c.backup.getD p.backup }

/-- The reference changes of SET CHANGE: the take on a new backup before the release of the old (R45, step 3). -/
def SetChange.references (c : SetChange) (old : Option Nat) (pt : PathTable) : PathTable :=
  match c.backup with
  | none => pt
  | some none => pt.releaseBackup old
  | some (some b) => (pt.takeBackup b).releaseBackup old

/-- SET CHANGE (R45). -/
def setChangeWork (ps : List Word) (s : State) : Reply :=
  match setChangeFields ps with
  | none => refuse s .badArg
  | some (id, c) =>
    if c.backup == some (some id) then refuse s .selfRef
    else match s.pt.set? id with
      | none => refuse s .absent
      | some p =>
        if (c.backup.getD none).any (fun b => (s.pt.set? b).isNone) then refuse s .noTarget
        else answerOk (s.setPt ((c.references p.backup s.pt).updSet id c.apply)) []

/-- The releases of SET DELETE and the record's end (R46). -/
def PathTable.deleteSet (pt : PathTable) (p : PathSet) : PathTable :=
  let left := p.members.foldl (fun t m => t.leave p.id m.exit) (pt.releaseBackup p.backup)
  { left with sets := left.sets.filter (·.id != p.id) }

/-- SET DELETE (R46). -/
def setDeleteWork (ps : List Word) (s : State) : Reply :=
  match setIdOf (param ps 0) with
  | none => refuse s .badArg
  | some id =>
    match s.pt.set? id with
    | none => refuse s .absent
    | some p => if 0 < p.references then refuse s .inUse else answerOk (s.setPt (s.pt.deleteSet p)) []

/-- The word of a member in SET READ's answer: exit ID 31–16, weight 15–12, recorded state 11–8, bucket count 7–0. -/
def PathSet.memberWord (p : PathSet) (m : Member) : Word :=
  wordOf (m.exit * 2 ^ 16 + m.weight * 2 ^ 12 + recordedCode m.up * 2 ^ 8 + bucketCount p.map m.exit)

/-- The answer words of SET READ (R47, R196). -/
def PathSet.readWords (p : PathSet) : List Word :=
  [pack8 p.rejoin.code p.emptyVerdict.code 0 p.members.length,
    wordOf (bitCode p.backup.isSome * 2 ^ 24 + p.backup.getD 0),
    wordOf p.routeRefs,
    pack16 p.backupRefs p.pinRefs] ++ p.members.map p.memberWord

/-- SET READ (R47). -/
def setReadWork (ps : List Word) (s : State) : Reply :=
  match setIdOf (param ps 0) with
  | none => refuse s .badArg
  | some id =>
    match s.pt.set? id with
    | none => refuse s .absent
    | some p => answerOk s p.readWords

/-- MEMBER ADD's change of the set: the member joins at the end, and is a gain when it is recorded UP (R48). -/
def PathSet.addMember (p : PathSet) (m : Member) : PathSet :=
  let q := { p with members := p.members ++ [m] }
  if m.up then q.gain else q

/-- MEMBER ADD's set ID and entry (R48, R196). -/
def memberAddFields (ps : List Word) : Option (Nat × Nat × Nat) := do
  let id ← setIdOf (param ps 0)
  let x ← memberEntryOf (param ps 1)
  some (id, x)

/-- The checks that MEMBER ADD makes within its claim, the first that fails deciding (R48). -/
def memberAddRefusal (pt : PathTable) (id exit : Nat) : Option ResultCode :=
  match pt.set? id with
  | none => some .absent
  | some p =>
    if (pt.exit? exit).isNone then some .noTarget
    else if (p.member? exit).isSome then some .dupMember
    else if Config.maxMembers ≤ p.members.length then some .setFull
    else none

/-- The port whose effective state MEMBER ADD's new member reads (R48, R84). -/
def memberAddPorts (pt : PathTable) (id exit : Nat) : List (Fin 64) :=
  if (memberAddRefusal pt id exit).isSome then [] else pt.portOf exit

/-- MEMBER ADD (R48). -/
def memberAddWork (ps : List Word) (s : State) : Reply :=
  match memberAddFields ps with
  | none => refuse s .badArg
  | some (id, x) =>
    match memberAddRefusal s.pt id x.1 with
    | some code => refuse s code
    | none => s.withReads (memberAddPorts s.pt id x.1) fun reads t =>
        let m := t.pt.newMember x (reads.headD false)
        answerOk (t.setPt ((t.pt.join id x.1).updSet id (·.addMember m))) [pack8 (recordedCode m.up) 0 0 0]

/-- MEMBER REMOVE's change of the set: a loss when the member is recorded UP, then the member leaves the list (R49). -/
def PathSet.removeMember (p : PathSet) (m : Member) : PathSet :=
  let q := if m.up then p.lose m.exit else p
  { q with members := q.members.filter (·.exit != m.exit) }

/-- MEMBER REMOVE (R49). -/
def memberRemoveWork (ps : List Word) (s : State) : Reply :=
  match setIdOf (param ps 0), exitIdOf (param ps 1) with
  | some id, some e =>
    match (s.pt.set? id).bind (·.member? e) with
    | none => refuse s .absent
    | some m => answerOk (s.setPt ((s.pt.leave id e).updSet id (·.removeMember m))) []
  | _, _ => refuse s .badArg

/-- MEMBER WEIGHT's change of the set: the weight is written in place, which is a gain event (R50, R61). -/
def PathSet.reweigh (p : PathSet) (exit weight : Nat) : PathSet :=
  (p.updMember exit fun m => { m with weight := weight }).gain

/-- MEMBER WEIGHT (R50). -/
def memberWeightWork (ps : List Word) (s : State) : Reply :=
  match setIdOf (param ps 0), memberEntryOf (param ps 1) with
  | some id, some x =>
    match (s.pt.set? id).bind (·.member? x.1) with
    | none => refuse s .absent
    | some m =>
      if m.weight = x.2 then answerOk s []
      else answerOk (s.setPt (s.pt.updSet id (·.reweigh x.1 x.2))) []
  | _, _ => refuse s .badArg

/-- SET REFILL (R67). -/
def setRefillWork (ps : List Word) (s : State) : Reply :=
  match setIdOf (param ps 0) with
  | none => refuse s .badArg
  | some id =>
    match s.pt.set? id with
    | none => refuse s .absent
    | some p => answerOk (s.setPt (s.pt.updSet id (·.fill))) [wordOf (bucketsChanged p.map (fillMap p.members))]

/-- A bucket in MAP READ's answer: the exit ID of its member, or FFFFh for EMPTY (R196). -/
def bucketCode : Option Nat → Nat
  | some e => e
  | none => 0xFFFF

/-- The first bucket of the half: LOWER 1, UPPER 2 (R69, R194). -/
def halfOf : Nat → Option Nat
  | 1 => some 0
  | 2 => some 32
  | _ => none

/-- The answer words of MAP READ for the half that starts at a bucket (R69, R196). -/
def PathSet.mapWords (p : PathSet) (start : Nat) : List Word :=
  pack8 p.members.length p.upCount 0 0 :: pairWords (((p.map.drop start).take 32).map bucketCode)

/-- MAP READ (R69). -/
def mapReadWork (ps : List Word) (s : State) : Reply :=
  match setIdOf (param ps 0), halfOf (bits (param ps 0) 7 0) with
  | some id, some start =>
    match s.pt.set? id with
    | none => refuse s .absent
    | some p => answerOk s (p.mapWords start)
  | _, _ => refuse s .badArg

/-! ## The meanings -/

/-- SET_CREATE (R44). -/
def execSetCreate (s : State) : Out := .next (runCommand 0x30 setCreateWork s)

/-- SET_CHANGE (R45). -/
def execSetChange (s : State) : Out := .next (runCommand 0x31 setChangeWork s)

/-- SET_DELETE (R46). -/
def execSetDelete (s : State) : Out := .next (runCommand 0x32 setDeleteWork s)

/-- SET_READ (R47). -/
def execSetRead (s : State) : Out := .next (runCommand 0x33 setReadWork s)

/-- MEMBER_ADD (R48). -/
def execMemberAdd (s : State) : Out := .next (runCommand 0x34 memberAddWork s)

/-- MEMBER_REMOVE (R49). -/
def execMemberRemove (s : State) : Out := .next (runCommand 0x35 memberRemoveWork s)

/-- MEMBER_WEIGHT (R50). -/
def execMemberWeight (s : State) : Out := .next (runCommand 0x36 memberWeightWork s)

/-- SET_REFILL (R67). -/
def execSetRefill (s : State) : Out := .next (runCommand 0x37 setRefillWork s)

/-- MAP_READ (R69). -/
def execMapRead (s : State) : Out := .next (runCommand 0x38 mapReadWork s)

end Sys2Proof.Machine
end

