-- ==== Sys2Proof/Machine/Dispatch.lean ====
section
/-! DEFINITION. One arm for each row of spec/opcode_table.json, in its order. -/

namespace Sys2Proof.Machine

/-- The effect of a command on everything but the queue. -/
def exec (i : Instr) (s : State) : Host.Outcome State Fault Refusal :=
  match i with
  | .wordWrite w => Sys2Proof.Machine.execWordWrite w s
  | .wordRead => Sys2Proof.Machine.execWordRead s
  | .abort => Sys2Proof.Machine.execAbort s
  | .workPhaseEnd => Sys2Proof.Machine.execWorkPhaseEnd s
  | .domainSet => Sys2Proof.Machine.execDomainSet s
  | .domainRead => Sys2Proof.Machine.execDomainRead s
  | .routeAdd => Sys2Proof.Machine.execRouteAdd s
  | .routeChange => Sys2Proof.Machine.execRouteChange s
  | .routeDrop => Sys2Proof.Machine.execRouteDrop s
  | .routeRead => Sys2Proof.Machine.execRouteRead s
  | .routeFind => Sys2Proof.Machine.execRouteFind s
  | .exitCreate => Sys2Proof.Machine.execExitCreate s
  | .exitChange => Sys2Proof.Machine.execExitChange s
  | .exitEnable => Sys2Proof.Machine.execExitEnable s
  | .exitDisable => Sys2Proof.Machine.execExitDisable s
  | .exitDelete => Sys2Proof.Machine.execExitDelete s
  | .exitRead => Sys2Proof.Machine.execExitRead s
  | .setCreate => Sys2Proof.Machine.execSetCreate s
  | .setChange => Sys2Proof.Machine.execSetChange s
  | .setDelete => Sys2Proof.Machine.execSetDelete s
  | .setRead => Sys2Proof.Machine.execSetRead s
  | .memberAdd => Sys2Proof.Machine.execMemberAdd s
  | .memberRemove => Sys2Proof.Machine.execMemberRemove s
  | .memberWeight => Sys2Proof.Machine.execMemberWeight s
  | .setRefill => Sys2Proof.Machine.execSetRefill s
  | .mapRead => Sys2Proof.Machine.execMapRead s
  | .portForce => Sys2Proof.Machine.execPortForce s
  | .portRead => Sys2Proof.Machine.execPortRead s
  | .laneEnable => Sys2Proof.Machine.execLaneEnable s
  | .laneDisable => Sys2Proof.Machine.execLaneDisable s
  | .laneRead => Sys2Proof.Machine.execLaneRead s
  | .laneWeight => Sys2Proof.Machine.execLaneWeight s
  | .probe => Sys2Proof.Machine.execProbe s
  | .jobStart => Sys2Proof.Machine.execJobStart s
  | .jobCancel => Sys2Proof.Machine.execJobCancel s
  | .jobRead => Sys2Proof.Machine.execJobRead s
  | .collect => Sys2Proof.Machine.execCollect s
  | .attentionMask => Sys2Proof.Machine.execAttentionMask s
  | .identify => Sys2Proof.Machine.execIdentify s
  | .setParameters => Sys2Proof.Machine.execSetParameters s
  | .readParameters => Sys2Proof.Machine.execReadParameters s
  | .readSpace => Sys2Proof.Machine.execReadSpace s
  | .restart => Sys2Proof.Machine.execRestart s
  | .restartComplete => Sys2Proof.Machine.execRestartComplete s
  | .signalDetected lane => Sys2Proof.Machine.execSignalDetected lane s
  | .alignmentComplete lane => Sys2Proof.Machine.execAlignmentComplete lane s
  | .signalLost lane cause => Sys2Proof.Machine.execSignalLost lane cause s
  | .lookupN lane tag domain mark hash key => Sys2Proof.Machine.execLookupN lane tag domain mark hash key s
  | .lookupW lane tag domain mark hash key => Sys2Proof.Machine.execLookupW lane tag domain mark hash key s
  | .port lane port state => Sys2Proof.Machine.execPort lane port state s
  | .checkFailure lane words => Sys2Proof.Machine.execCheckFailure lane words s
  | .malformedMessage lane words => Sys2Proof.Machine.execMalformedMessage lane words s
  | .creditSent lane => Sys2Proof.Machine.execCreditSent lane s
  | .resultSent lane => Sys2Proof.Machine.execResultSent lane s
  | .reportTaken => Sys2Proof.Machine.execReportTaken s
  | .holdDownExpiry port => Sys2Proof.Machine.execHoldDownExpiry port s
  | .visitClaim port => Sys2Proof.Machine.execVisitClaim port s
  | .grant => Sys2Proof.Machine.execGrant s
  | .lookupClaim => Sys2Proof.Machine.execLookupClaim s
  | .resolutionClaim => Sys2Proof.Machine.execResolutionClaim s
  | .stepClaim => Sys2Proof.Machine.execStepClaim s
  | .refillClaim => Sys2Proof.Machine.execRefillClaim s
  | .pinClaim slot => Sys2Proof.Machine.execPinClaim slot s
  | .hardwareReset lowNs => Sys2Proof.Machine.execHardwareReset lowNs s
  | .supplyInvalid rail => Sys2Proof.Machine.execSupplyInvalid rail s
  | .resetRelease => Sys2Proof.Machine.execResetRelease s
  | .supplyValid => Sys2Proof.Machine.execSupplyValid s
  | .startupClearingEnd => Sys2Proof.Machine.execStartupClearingEnd s

end Sys2Proof.Machine
end

