-- ==== Sys2Proof/Machine/Idle.lean ====
section
/-! DEFINITION. The step on an empty queue: claims that wait are taken, and a millisecond passes. -/

namespace Sys2Proof.Machine

/-- The ports whose effective states the command's claim on the Path Table reads, one after another (R84). -/
def portsRead (code : Nat) (ps : List Word) (pt : PathTable) : List (Fin 64) :=
  match code with
  | 0x21 => ((exitChangeWrite ps).map (·.ports pt)).getD []
  | 0x22 => ((exitAdminWrite true ps).map (·.ports pt)).getD []
  | 0x23 => ((exitAdminWrite false ps).map (·.ports pt)).getD []
  | 0x25 => ((exitReadFields ps).map fun x => pt.portOf x.1).getD []
  | 0x30 => ((setCreateFields ps).map (·.ports pt)).getD []
  | 0x34 => ((memberAddFields ps).map fun x => memberAddPorts pt x.1 x.2.1).getD []
  | _ => []

/-- The Path Table takes the CU's command claim, if it has not yet, and makes the next read of it, if one is left and PMON
takes it: the claim is TAKEN until the command's row finishes it (R36, R84, notes/assumptions/6.md). -/
def State.takeRead (s : State) : State :=
  match s.cu with
  | .busy (w :: ps) p =>
    if p.unapplied && s.running && s.admits (commandCode w) ps && s.pmon.admits .read then
      match (portsRead (commandCode w) ps s.pt).drop s.pt.reads.length with
      | [] => s
      | q :: _ =>
        ((s.setPt { s.pt.withdraw .command with taken := some (.command (s.pt.reads ++ [s.pmon.ports[q].live])) }).setPmon
          (s.pmon.withdraw .read)).setCu (.busy (w :: ps) .waiting)
    else s
  | .idle | .busy [] _ => s

/-- Nothing is commanded: a step's claim, a visit claim or a command claim that reads ports, which finds its block free and is
the next there, is taken (R16, R36, notes/assumptions/6.md), and one millisecond of the clock passes, which a RUNNING
hold-down timer's time left shows (R74, notes/assumptions/4.md). -/
def State.tick (s : State) : State :=
  let t := s.takeStep.takeVisit.takeRead
  t.setPmon (t.pmon.advance (t.pmon.now + 1))

end Sys2Proof.Machine
end

