-- ==== Sys2Proof/Machine/Flags.lean ====
section
/-! DEFINITION. The status flags and the pins that follow the state: TAKE, GIVE, WORK, LOST and ATTN of the status word
(R164, R165, R192), SDO (R163, R192), ATTN# (R157), and the lane transmitters' lines (R91, R185, R188). They are views:
none is stored twice. -/

namespace Sys2Proof.Machine

/-- TAKE is 1 in READY and COLLECTING (R164). -/
def State.take (s : State) : Bool :=
  s.running && (s.mp.state == .ready || s.mp.state == .collecting)

/-- GIVE is 1 in ANSWERING (R164). -/
def State.give (s : State) : Bool := s.running && s.mp.state == .answering

/-- WORK is 1 in WORKING and during the start-up clearing (R164, R186). -/
def State.work (s : State) : Bool :=
  (s.running && s.mp.state == .working) || s.dev.phase == .clearing

/-- ATTN is 1 while the attention list holds a record (R157, R164). -/
def State.attn (s : State) : Bool := !s.au.list.isEmpty

/-- The device drives ATTN# low (R157); released while a hardware reset is in effect (R185). -/
def State.attnPinLow (s : State) : Bool := s.attn && s.dev.phase != .held

def flag (b : Bool) (weight : Nat) : Nat := if b then weight else 0

/-- The status word (R192); none while RESET# is held, when SDO is not driven (R185). -/
def State.statusWord (s : State) : Option Word :=
  if s.dev.phase == .held then none
  else some (BitVec.ofNat 32 (0x5A000000 + flag s.mp.lost 16 + flag s.attn 8 + flag s.work 4 + flag s.give 2
    + flag s.take 1))

/-! ## SDO (R163, R192) -/

/-- The word the device shifts out after the opcode byte, as it stands when that byte is complete (R176): the status
word, the next answer word when the port is ANSWERING, else zero; zero for the transactions of the other direction and
for an opcode that is not one of the four (R163, R172, R173, R192). -/
def State.sdoWord (s : State) (opcode : Byte) : Word :=
  match spiOpcode opcode with
  | some .statusRead => s.statusWord.getD 0#32
  | some .wordRead => if s.give then s.mp.answer.headD 0#32 else 0#32
  | some .wordWrite => 0#32
  | some .abort => 0#32
  | none => 0#32

/-- What the device drives on SDO at a bit clock, counted from 0, of a transaction with the opcode: zero during the
opcode byte, the word most significant bit first, zero beyond the 40th clock. It drives nothing while CS# is high
(R163) and while a hardware reset is in effect (R185). -/
def State.sdo (s : State) (csLow : Bool) (opcode : Byte) (clock : Nat) : Option Bool :=
  if !csLow || s.dev.phase == .held then none
  else some (decide (8 ≤ clock) && (s.sdoWord opcode).getMsbD (clock - 8))

/-! ## The lane transmitters (R91, R188) -/

/-- What a lane's transmitter drives (R91, R100, R185, R188): quiet, the idle pattern, or the symbols of a message. -/
inductive Line where
  | quiet
  | idlePattern
  | message (symbols : List Symbol)
  deriving DecidableEq, Repr

/-- The message of an UP lane is framed (R188). A lane that has left UP has abandoned its message, and its line is quiet
or carries the idle pattern, as the link state requires (R93). -/
def State.line (s : State) (n : Fin 4) : Line :=
  if !s.running || (s.lane n).link == .disabled then .quiet
  else match (s.lane n).sending with
    | none => .idlePattern
    | some _ => .message (frame (s.lane n).messageWords)

end Sys2Proof.Machine
end

