-- ==== Sys2Proof/Safety.lean ====
section
/-! DEFINITION. What a claim about the machine is said in: the situation in which the CU works on a command, the state it
leaves when it answers, and the laws the manual states for every state that a run reaches. -/

namespace Sys2Proof.Machine

/-! ## A command in its work phase -/

/-- The blocks run, and the CU holds a command of code `code` with the parameter words `ps`, not yet applied (R171). -/
def State.holds (s : State) (code : Nat) (ps : List Word) : Prop :=
  s.dev.phase = .running ∧ ∃ w p, commandCode w = code ∧ s.cu = .busy (w :: ps) p ∧
    (p = .held ∨ p = .waiting ∨ p = .referring ∨ p = .restartLeft ∨ p = .restartPorts)

/-- The CU holds the command, and the blocks that it claims take its claims now (R16, R36, R171). -/
def State.works (s : State) (code : Nat) (ps : List Word) : Prop :=
  s.holds code ps ∧ s.admits code ps = true

/-- The state with the CU's command at the progress given; no claim of it waits at the Path Table or the port table, or is in
progress there. -/
def State.withProgress (s : State) (p : Progress) : State :=
  match s.cu with
  | .busy ws _ => s.dropClaims.setCu (.busy ws p)
  | .idle => s

/-- The state with the CU's command answered (R171, step 3). -/
def State.answered (s : State) (code : ResultCode) (words : List Word) : State :=
  s.withProgress (.answered ⟨code, words⟩)

/-- What the reads of the command's claim on the Path Table come to, when it reads these ports: what PMON is left with, and
the values, those of the reads made before first (R84). -/
def State.readsOf (s : State) (ports : List (Fin 64)) : PortMonitor × List Bool :=
  let r := s.pmon.readPorts (ports.drop s.pt.reads.length)
  (r.1, s.pt.reads ++ r.2)

/-- The state with the command's claim in progress at the Path Table, and a read of it waiting: what PMON is left with, and
the values read. -/
def State.reading (s : State) (r : PortMonitor × List Bool) : State :=
  match s.cu with
  | .busy ws _ =>
    ((s.setPmon r.1).setPt { s.pt.withdraw .command with taken := some (.command r.2) }).setCu (.busy ws .waiting)
  | .idle => s

/-! ## The Route Store (R3, R4, R8) -/

/-- The route table is strictly ascending in table order, units in use is the routes' sizes together and at most
65,536, and every domain's counts are its numbers of routes (R3, R4, R8). -/
def RouteStore.lawful (rs : RouteStore) : Prop :=
  rs.routes.Pairwise (fun a b => a.ident.before b.ident = true) ∧
  rs.units = (rs.routes.map fun r => r.family.size).sum ∧ rs.units ≤ Config.storageUnits ∧
  ∀ d : Fin 16,
    (rs.domain d).narrowCount = rs.routes.countP (fun r => r.ident.domain == d && r.family == .narrow) ∧
    (rs.domain d).wideCount = rs.routes.countP (fun r => r.ident.domain == d && r.family == .wide)

/-! ## Path sets (R30, R55) -/

/-- At most 16 members, no two naming one exit, weights 1–15; and the law of the map: 64 buckets, each naming a member
recorded UP, or EMPTY with no member recorded UP (R30, R55). -/
def PathSet.lawful (p : PathSet) : Prop :=
  p.members.length ≤ Config.maxMembers ∧ (p.members.map (·.exit)).Nodup ∧
  (∀ m ∈ p.members, 1 ≤ m.weight ∧ m.weight ≤ 15) ∧ p.map.length = Config.buckets ∧
  (∀ e, some e ∈ p.map → ∃ m ∈ p.members, m.exit = e ∧ m.up = true) ∧
  (none ∈ p.map → ∀ m ∈ p.members, m.up = false)

/-- The tables stand in strictly ascending ID, and every ACTIVE set is lawful. -/
def PathTable.lawful (pt : PathTable) : Prop :=
  pt.exits.Pairwise (fun a b => a.id < b.id) ∧ pt.sets.Pairwise (fun a b => a.id < b.id) ∧
  ∀ p ∈ pt.sets, p.lawful

/-! ## References (R31 to R34) -/

/-- The number of pins that jobs hold on a target: those RUNNING, and those that RESTART has dropped, whose pins stand until
the Path Table's clearing (R34, R149). -/
def JobEngine.pins (je : JobEngine) (t : Target) : Nat := je.jobs.countP (·.spec.pin == some t)

/-- The set holds a member naming the exit. -/
def PathSet.names (p : PathSet) (exit : Nat) : Bool := p.members.any (·.exit == exit)

/-- The references of every ACTIVE exit and path set are what names it, counted by kind; its user list is the path
sets that name it, in ascending ID; and nothing names a FREE record (R31, R32, R33, R34). -/
def State.referencesAgree (s : State) : Prop :=
  (∀ e ∈ s.pt.exits,
    e.routeRefs = s.rs.routes.countP (fun r => r.target == .exit e.id) ∧
    e.memberRefs = s.pt.sets.countP (·.names e.id) ∧
    e.users = (s.pt.sets.filter (·.names e.id)).map (·.id) ∧
    e.pinRefs = s.je.pins (.exit e.id)) ∧
  (∀ p ∈ s.pt.sets,
    p.routeRefs = s.rs.routes.countP (fun r => r.target == .pathSet p.id) ∧
    p.backupRefs = s.pt.sets.countP (fun q => q.backup == some p.id) ∧
    p.pinRefs = s.je.pins (.pathSet p.id)) ∧
  (∀ r ∈ s.rs.routes, s.pt.stands r.target = true) ∧
  (∀ p ∈ s.pt.sets, (∀ m ∈ p.members, (s.pt.exit? m.exit).isSome) ∧
    ∀ b, p.backup = some b → b ≠ p.id ∧ (s.pt.set? b).isSome) ∧
  (∀ j ∈ s.je.jobs, ∀ t, j.spec.pin = some t → s.pt.stands t = true)

/-! ## Ports (R70, R71, R79) -/

/-- The effective state is the one R71 gives, and the timer runs exactly in RECOVERING (R70, R71, R73, R75). -/
def Port.lawful (x : Port) : Prop :=
  x.live = effectiveOf x.forced x.phase ∧ (x.timer.isSome = true ↔ x.phase = .recovering)

/-! ## Lanes (R90, R97) -/

/-- Nothing but WAITING entries. -/
def allWaiting : List Entry → Bool
  | [] => true
  | e :: es => e.status == .waiting && allWaiting es

/-- Zero or more DONE entries, at most one GRANTED entry, zero or more WAITING entries, from the oldest (R97). -/
def queueInOrder : List Entry → Bool
  | [] => true
  | e :: es =>
    match e.status with
    | .done _ => queueInOrder es
    | .granted => allWaiting es
    | .waiting => allWaiting es

/-- A GRANTED entry stands in the queue. -/
def Lane.hasGranted (l : Lane) : Bool := l.queue.any (·.status == .granted)

/-- The bounds of R90, those of the weight and the counters among them, and the order of R97. -/
def Lane.lawful (l : Lane) : Prop :=
  queueInOrder l.queue = true ∧ l.queue.length ≤ Config.queueLimit ∧ l.held ≤ Config.creditLimit ∧
  l.owed ≤ Config.creditLimit ∧ l.reportsPending ≤ Config.creditLimit ∧ 1 ≤ l.weight ∧ l.weight ≤ 8 ∧
  l.requestsTaken ≤ Config.count32 ∧ l.resultsSent ≤ Config.count32 ∧ l.overruns ≤ Config.count16 ∧
  l.checkErrors ≤ Config.count16 ∧ l.malformed ≤ Config.count16

/-- The lanes' laws, with the one GRANTED entry of the device belonging to the lookup in flight (R97, R102). -/
def State.lanesLawful (s : State) : Prop :=
  (∀ n, (s.lane n).lawful) ∧
  ∀ n, (s.lane n).hasGranted = true → ∃ k, s.su.lookup = some k ∧ k.source = .lane n

/-- The count of a CREDIT message whose send has begun and not ended (R101). -/
def Lane.transit (l : Lane) : Nat :=
  match l.sending with
  | some (.credit c) => c
  | _ => 0

/-- The five quantities of R101 together. -/
def Lane.credits (l : Lane) : Nat := l.held + l.queue.length + l.reportsPending + l.owed + l.transit

/-- Of a lane UP the five quantities of R101 add up to 32. The rest says what makes that last: a lane that is not UP has
no entry, no report pending and no message being sent (R92, R93), reports pending counts the reports at PMON that will
be credited, a RESULT is sent only of a DONE entry, and during RESTART every lane is DISABLED. -/
def State.creditsConserved (s : State) : Prop :=
  (∀ n, ((s.lane n).link = .up → (s.lane n).credits = Config.creditLimit) ∧
    ((s.lane n).link ≠ .up → (s.lane n).queue = [] ∧ (s.lane n).reportsPending = 0 ∧ (s.lane n).sending = none) ∧
    (s.lane n).reportsPending = s.pmon.reports.countP (fun r => r.lane == n && r.credit) ∧
    ((s.lane n).sending = some .result → (s.lane n).headDone = true)) ∧
  (s.restarting = true → ∀ n, (s.lane n).link = .disabled)

/-- The lane on which a command is an inbound message. -/
def arrivalLane : Instr → Option (Fin 4)
  | .lookupN n _ _ _ _ _ => some n
  | .lookupW n _ _ _ _ _ => some n
  | .port n _ _ => some n
  | .checkFailure n _ => some n
  | .malformedMessage n _ => some n
  | _ => none

/-- The client of the lane on which the command arrives holds a credit for it (R101). -/
def State.clientConforms (s : State) (c : Instr) : Prop :=
  ∀ n, arrivalLane c = some n → (s.lane n).link = .up → 0 < (s.lane n).held

/-! ## Attention (R144, R151) -/

/-- The source of a record (R150). -/
inductive RecordSource where
  | port (p : Fin 64) | job (slot : Fin 4) | lane (n : Fin 4) | space
  deriving DecidableEq, Repr

def Record.source : Record → RecordSource
  | .port p _ _ => .port p
  | .job n .. => .job n
  | .lane n _ _ => .lane n
  | .space _ => .space

/-- The JOB record of a job in a slot, if its outcome is decided (R144). -/
def Job.record (j : Job) (n : Fin 4) : Option Record :=
  j.outcome.map fun o => .job n j.spec.kind o j.visited j.matched j.acted

/-- No two records of one source, and a slot is ENDED exactly when the list holds its JOB record, with the counts the
slot holds (R144, R151). -/
def State.attentionLawful (s : State) : Prop :=
  s.au.list.Pairwise (fun a b => a.source ≠ b.source) ∧
  (∀ n j, s.slot n = .ended j → ∃ r ∈ s.au.list, j.record n = some r) ∧
  ∀ n k o v m a, Record.job n k o v m a ∈ s.au.list →
    ∃ j, s.slot n = .ended j ∧ j.record n = some (.job n k o v m a)

/-! ## The command phases (R164, R170, R171, R175) -/

/-- The port is WORKING exactly when the CU is BUSY, and then holds the CU's words; answer words stand exactly in
ANSWERING; an abort is held only in WORKING; and the port is in one of its four states (R164, R170, R171, R172, R175). -/
def State.managementLawful (s : State) : Prop :=
  (s.mp.state = .working ↔ s.cu ≠ .idle) ∧ (∀ ws p, s.cu = .busy ws p → s.mp.command = ws) ∧
  (s.mp.state = .answering ↔ s.mp.answer ≠ []) ∧ (s.mp.abortHeld = true → s.mp.state = .working) ∧
  s.mp.state ≠ .starting

/-- A formed answer has at most 31 words after the first, and what PORT READ has read leaves room for its last word
(R170). -/
def State.answersFit (s : State) : Prop :=
  ∀ ws p, s.cu = .busy ws p →
    match p with
    | .answered a => a.words.length ≤ 31
    | .counting _ words _ => words.length ≤ 30
    | _ => True

/-! ## The host commands -/

/-- The command code of the row of a host command (R195 to R198); none for the other rows. -/
def hostCode : Instr → Option Nat
  | .domainSet => some 0x10
  | .domainRead => some 0x11
  | .routeAdd => some 0x12
  | .routeChange => some 0x13
  | .routeDrop => some 0x14
  | .routeRead => some 0x15
  | .routeFind => some 0x16
  | .exitCreate => some 0x20
  | .exitChange => some 0x21
  | .exitEnable => some 0x22
  | .exitDisable => some 0x23
  | .exitDelete => some 0x24
  | .exitRead => some 0x25
  | .setCreate => some 0x30
  | .setChange => some 0x31
  | .setDelete => some 0x32
  | .setRead => some 0x33
  | .memberAdd => some 0x34
  | .memberRemove => some 0x35
  | .memberWeight => some 0x36
  | .setRefill => some 0x37
  | .mapRead => some 0x38
  | .portForce => some 0x40
  | .portRead => some 0x41
  | .laneEnable => some 0x50
  | .laneDisable => some 0x51
  | .laneRead => some 0x52
  | .laneWeight => some 0x53
  | .probe => some 0x60
  | .jobStart => some 0x70
  | .jobCancel => some 0x71
  | .jobRead => some 0x72
  | .collect => some 0x80
  | .attentionMask => some 0x81
  | .identify => some 0x90
  | .restart => some 0x91
  | .setParameters => some 0x92
  | .readParameters => some 0x93
  | .readSpace => some 0x94
  | _ => none

/-! ## Arguments that are answered BADARG -/

/-- The family code of the first word is undefined, or disagrees with the parameter count when `others` words stand
beside the key words (R19, R125, R195, R197). -/
def badFamily (ps : List Word) (others : Nat) : Prop :=
  ¬ (bits (param ps 0) 23 16 = 1 ∧ ps.length = 1 + others) ∧ ¬ (bits (param ps 0) 23 16 = 2 ∧ ps.length = 4 + others)

/-- The identity group that stands first: domain, family, prefix length (R19). -/
def badIdentity (ps : List Word) (others : Nat) : Prop :=
  15 < bits (param ps 0) 31 24 ∨ badFamily ps others ∨
  (bits (param ps 0) 23 16 = 1 ∧ 32 < bits (param ps 0) 15 8) ∨
  (bits (param ps 0) 23 16 = 2 ∧ 128 < bits (param ps 0) 15 8)

/-- The number of words of the identity group with its key words (R194). -/
def identityWords (ps : List Word) : Nat := if bits (param ps 0) 23 16 = 1 then 2 else 5

/-- The target group: an undefined kind, or an ID out of range (R19). -/
def badTarget (w : Word) : Prop :=
  bits w 31 24 ∉ [1, 2, 3, 4] ∨ (bits w 31 24 = 1 ∧ 4095 < bits w 15 0) ∨ (bits w 31 24 = 2 ∧ 8191 < bits w 15 0)

/-- A VLAN value, an MTU, and a weight out of range (R38). -/
def badVlan (v : Nat) : Prop := v = 0 ∨ 4094 < v

@[inherit_doc badVlan] def badMtu (v : Nat) : Prop := v < 64 ∨ 16383 < v

@[inherit_doc badVlan] def badWeight (w : Word) : Prop := bits w 7 0 = 0 ∨ 15 < bits w 7 0

/-- The arguments of a SURVEY (R131, R198). -/
def badSurvey (ps : List Word) : Prop :=
  let given := fun b => bits (param ps 0) b b = 1
  let action := bits (param ps 0) 23 16
  let family := bits (param ps 1) 23 16
  (given 8 ∧ 15 < bits (param ps 1) 31 24) ∨ (given 9 ∧ family ∉ [1, 2]) ∨
  (given 10 ∧ (¬ given 9 ∨ (family = 1 ∧ 32 < bits (param ps 0) 7 0) ∨ (family = 2 ∧ 128 < bits (param ps 0) 7 0))) ∨
  (given 11 ∧ badTarget (param ps 2)) ∨ (given 12 ∧ bits (param ps 1) 15 8 ∉ [1, 2]) ∨ action ∉ [1, 2, 3, 4, 5] ∨
  (action = 3 ∧ (bits (param ps 3) 31 24 ∉ [1, 2] ∨ badTarget (param ps 3))) ∨
  (action ≠ 3 ∧ bits (param ps 3) 31 24 ≠ 0)

/-- The parameter words that each command answers with BADARG, in the words of its rule (R14, R15, R19, R38, R67, R69,
R77, R85, R110, section 5.11, R125, R131, R145, R147, R156, R179). -/
def badArgs (c : Instr) (ps : List Word) : Prop :=
  let w := param ps
  match c with
  | .domainSet => 15 < bits (w 0) 31 24 ∨ bits (w 0) 23 16 ∉ [1, 2] ∨ bits (w 0) 15 8 ∉ [2, 3]
  | .domainRead => 15 < bits (w 0) 31 24
  | .routeAdd => badIdentity ps 3 ∨ badTarget (w (identityWords ps)) ∨ bits (w (identityWords ps + 1)) 31 24 ∉ [1, 2]
  | .routeChange =>
    badIdentity ps 4 ∨ (bits (w (identityWords ps)) 0 0 = 1 ∧ badTarget (w (identityWords ps + 1))) ∨
      (bits (w (identityWords ps)) 1 1 = 1 ∧ bits (w (identityWords ps + 2)) 31 24 ∉ [1, 2])
  | .routeDrop => badIdentity ps 1
  | .routeRead => bits (w 0) 7 0 ∉ [1, 2, 3] ∨ (bits (w 0) 7 0 ≠ 3 ∧ badIdentity ps 1)
  | .routeFind => 15 < bits (w 0) 31 24 ∨ badFamily ps 1
  | .exitCreate =>
    8191 < bits (w 0) 31 16 ∨ bits (w 0) 15 8 ∉ [1, 2] ∨ 63 < bits (w 0) 7 0 ∨ 1 < bits (w 3) 31 24 ∨
      (bits (w 3) 31 24 = 1 ∧ badVlan (bits (w 2) 15 0)) ∨ badMtu (bits (w 3) 15 0)
  | .exitChange =>
    8191 < bits (w 0) 31 16 ∨ 1 < bits (w 1) 31 24 ∨ 1 < bits (w 1) 23 16 ∨ 2 < bits (w 1) 15 8 ∨ 1 < bits (w 1) 7 0 ∨
      (bits (w 1) 31 24 = 1 ∧ 63 < bits (w 0) 7 0) ∨ (bits (w 1) 15 8 = 1 ∧ badVlan (bits (w 3) 15 0)) ∨
      (bits (w 1) 7 0 = 1 ∧ badMtu (bits (w 4) 15 0))
  | .exitEnable | .exitDisable | .exitDelete => 8191 < bits (w 0) 31 16
  | .exitRead => 8191 < bits (w 0) 31 16 ∨ 4095 < bits (w 1) 15 0
  | .setCreate =>
    4095 < bits (w 0) 31 16 ∨ bits (w 0) 15 8 ∉ [1, 2] ∨ bits (w 0) 7 0 ∉ [2, 3] ∨ 1 < bits (w 1) 31 24 ∨
      (bits (w 1) 31 24 = 1 ∧ 4095 < bits (w 1) 15 0) ∨ ∃ e ∈ ps.drop 2, 8191 < bits e 31 16 ∨ badWeight e
  | .setChange =>
    4095 < bits (w 0) 31 16 ∨ 1 < bits (w 1) 31 24 ∨ 1 < bits (w 1) 23 16 ∨ 2 < bits (w 1) 15 8 ∨
      (bits (w 1) 31 24 = 1 ∧ bits (w 2) 31 24 ∉ [1, 2]) ∨ (bits (w 1) 23 16 = 1 ∧ bits (w 2) 23 16 ∉ [2, 3]) ∨
      (bits (w 1) 15 8 = 1 ∧ 4095 < bits (w 2) 15 0)
  | .setDelete | .setRead | .setRefill => 4095 < bits (w 0) 31 16
  | .mapRead => 4095 < bits (w 0) 31 16 ∨ bits (w 0) 7 0 ∉ [1, 2]
  | .memberAdd | .memberWeight => 4095 < bits (w 0) 31 16 ∨ 8191 < bits (w 1) 31 16 ∨ badWeight (w 1)
  | .memberRemove => 4095 < bits (w 0) 31 16 ∨ 8191 < bits (w 1) 31 16
  | .portForce => 63 < bits (w 0) 31 24 ∨ 2 < bits (w 0) 23 16
  | .portRead => 63 < bits (w 0) 31 24
  | .laneEnable | .laneDisable | .laneRead => 3 < bits (w 0) 31 24
  | .laneWeight => 3 < bits (w 0) 31 24 ∨ bits (w 0) 23 16 = 0 ∨ 8 < bits (w 0) 23 16
  | .probe => 15 < bits (w 0) 31 24 ∨ badFamily ps 2 ∨ 1 < bits (w 0) 15 8 ∨ 65535 < (w 1).toNat
  | .jobStart =>
    (¬ (bits (w 0) 31 24 = 1 ∧ ps.length = 8) ∧ ¬ (bits (w 0) 31 24 = 2 ∧ ps.length = 2)) ∨
      (bits (w 0) 31 24 = 1 ∧ badSurvey ps) ∨
      (bits (w 0) 31 24 = 2 ∧ (4095 < bits (w 1) 31 16 ∨ 4095 < bits (w 1) 15 0 ∨ bits (w 1) 15 0 < bits (w 1) 31 16))
  | .jobCancel | .jobRead => 3 < bits (w 0) 31 24
  | .attentionMask => 2 < bits (w 0) 31 24 ∨ 2 < bits (w 0) 23 16 ∨ 2 < bits (w 0) 15 8
  | .setParameters =>
    1 < bits (w 0) 31 24 ∨ 1 < bits (w 0) 23 16 ∨ (bits (w 0) 31 24 = 1 ∧ 10000 < bits (w 1) 15 0) ∨
      (bits (w 0) 23 16 = 1 ∧ ((w 2).toNat = 0 ∨ 65536 < (w 2).toNat ∨ 65535 < (w 3).toNat ∨ (w 2).toNat ≤ (w 3).toNat))
  | _ => False

/-! ## Checks that a command makes before it claims any block (R171, step 1) -/

/-- The number of words beside the key words of a command that names a route by its identity and checks its key (R2, R24). -/
def identityOthers (c : Instr) (ps : List Word) : Option Nat :=
  match c with
  | .routeAdd => some 3
  | .routeChange => some 4
  | .routeDrop => some 1
  | .routeRead => if bits (param ps 0) 7 0 = 3 then none else some 1
  | _ => none

/-- The result codes of the checks that fail, each with its cause: the arguments (R171), a key or a cover with a one beyond
its length (R2, R131), the shape of SET CREATE, a set as its own backup (R44, R45), and no IDLE slot for JOB START, which it
finds before its pin take (R132). -/
def checkFails (c : Instr) (ps : List Word) (s : State) : ResultCode → Prop
  | .badArg => badArgs c ps
  | .badKey =>
    (∃ others i, identityOthers c ps = some others ∧ identityOf ps others = some i ∧ i.keyOk = false) ∨
      (c = .jobStart ∧ ∃ spec, jobSpecOf ps = some spec ∧ spec.keyOk = false)
  | .setFull => c = .setCreate ∧ ∃ x, setCreateFields ps = some x ∧ 16 < x.entries.length
  | .dupMember => c = .setCreate ∧ ∃ x, setCreateFields ps = some x ∧ ¬ (x.entries.map (·.1)).Nodup
  | .selfRef =>
    (c = .setCreate ∧ ∃ x, setCreateFields ps = some x ∧ x.backup = some x.id) ∨
      (c = .setChange ∧ ∃ id x, setChangeFields ps = some (id, x) ∧ x.backup = some (some id))
  | .noSlot => c = .jobStart ∧ ∀ n, s.slot n ≠ .idle
  | _ => False

/-! ## Layouts, as the host and the clients write them (R190, R194 to R196) -/

/-- The data words of an inbound message as R190 lays it out, before its check word; none for the other rows. -/
def messageLayout : Instr → Option (List Word)
  | .lookupN _ tag d mark hash key =>
    some [wordOf (1 * 2 ^ 28 + 1 * 2 ^ 26 + bitCode mark * 2 ^ 25 + d.val * 2 ^ 16 + tag.toNat), wordOf hash.toNat, key]
  | .lookupW _ tag d mark hash key =>
    some ([wordOf (1 * 2 ^ 28 + 2 * 2 ^ 26 + bitCode mark * 2 ^ 25 + d.val * 2 ^ 16 + tag.toNat), wordOf hash.toNat]
      ++ (Key.wide key).toWords)
  | .port _ p st => some [wordOf (2 * 2 ^ 28 + (match st with | .live => 1 | .dead => 2) * 2 ^ 26 + p.val)]
  | _ => none

/-- The identity group I, K (R194). -/
def Identity.layout (i : Identity) : List Word := i.word :: i.key.toWords

/-- EXIT CREATE's parameter words (R196). -/
def Exit.layout (e : Exit) : List Word :=
  [wordOf (e.id * 2 ^ 16 + enabledCode e.enabled * 2 ^ 8 + e.port.val), e.addr.extractLsb' 16 32,
    pack16 (e.addr.extractLsb' 0 16).toNat (e.vlan.getD 0), wordOf (bitCode e.vlan.isSome * 2 ^ 24 + e.mtu)]

/-- SET CREATE's parameter words (R196). -/
def SetCreate.layout (c : SetCreate) : List Word :=
  wordOf (c.id * 2 ^ 16 + c.rejoin.code * 2 ^ 8 + c.emptyVerdict.code)
    :: wordOf (bitCode c.backup.isSome * 2 ^ 24 + c.backup.getD 0)
    :: c.entries.map fun x => wordOf (x.1 * 2 ^ 16 + x.2)

/-- The target's ID is in its range (R1). -/
def Target.inRange : Target → Prop
  | .pathSet i => i ≤ Config.maxSetId
  | .exit i => i ≤ Config.maxExitId
  | .discard => True
  | .control => True

/-- The fields of a filter and of an action are in range, and a cover stands with its family (R129, R131). -/
def JobSpec.inRange : JobSpec → Prop
  | .refill first last => first ≤ last ∧ last ≤ Config.maxSetId
  | .survey f a =>
    (∀ t, f.target = some t → t.inRange) ∧
    (∀ c, f.cover = some c → f.family = some c.1.family ∧ c.2 ≤ c.1.family.width) ∧
    ∀ t, a = .repoint t → t.inRange ∧ t ≠ .discard ∧ t ≠ .control

/-! ## Matching (R5) -/

/-- Bit `j` of a key, counted from its most significant bit. -/
def Key.bit (j : Nat) : Key → Bool
  | .narrow k => k.getMsbD j
  | .wide k => k.getMsbD j

/-- The route is a candidate for the key in the domain, in R5's words. -/
def Route.matchesKey (r : Route) (d : Fin 16) (k : Key) : Prop :=
  r.ident.domain = d ∧ r.family = k.family ∧ ∀ j, j < r.ident.len → r.ident.key.bit j = k.bit j

/-! ## What a change of an exit leaves (R40, R41) -/

/-- After: exit `id` stands as `e`, the sets of its user list have had, in list order, the member naming it updated to the
state derived from the effective state that its visit read, and nothing else of the Path Table has changed. -/
def PathTable.exitWritten (before after : PathTable) (reads : List Bool) (id : Nat) (e : Exit) : Prop :=
  after.waiting = before.waiting ∧ after.taken = before.taken ∧
  (∀ j, after.exit? j = if j = id then some e else before.exit? j) ∧
  ∀ j, after.set? j = (before.set? j).map fun p =>
    (e.users.zip reads).foldl (fun q x => if x.1 = j then q.memberUpdate id (e.enabled && x.2) else q) p

/-! ## The failover pass (R81) -/

/-- (exit, set) is a place of the pass of port `p`: the exit is ACTIVE on `p` and its user list names the set. -/
def PathTable.isPlace (pt : PathTable) (p : Fin 64) (c : Nat × Nat) : Prop :=
  ∃ e ∈ pt.exits, e.id = c.1 ∧ e.port = p ∧ c.2 ∈ e.users

/-- The order of the pass: exits ascending, and within an exit sets ascending. -/
def placeBefore (a b : Nat × Nat) : Prop := a.1 < b.1 ∨ (a.1 = b.1 ∧ a.2 < b.2)

end Sys2Proof.Machine
end

