-- ==== Sys2Proof/Certificates/Slice0/Obligations.lean ====
section
/-! DEFINITION. The statements for the provers. Each is about the whole next state that `exec` answers, so it says what
a command changes and that it changes nothing else; those that say less say so in their title. -/

open Sys2Proof Sys2Proof.Machine

/-! ## The machine -/

/-- A step takes the command at the front of the queue and executes it with the queue's rest. On an empty queue a step's claim
that waits is TAKEN when its block is free and no other claim goes before it, as R16 has it of a claim presented while its
table is free; then so is a visit claim that is first in line at the Path Table, and a command's claim that reads ports, of
which the next read is made when PMON takes it; and a millisecond of the model's clock passes (DESIGN CHOICE,
notes/assumptions/4.md and 6.md). -/
def Obligations.StepRunsTheFrontCommand : Prop :=
  (∀ s c rest, s.pending = c :: rest → step s = exec c (s.setPending rest)) ∧
  (∀ s : State, s.pending = [] →
    let t := s.takeStep.takeVisit.takeRead
    step s = .next (t.setPmon (t.pmon.advance (t.pmon.now + 1)))) ∧
  (∀ s : State,
    ((∀ n j, s.slot n = .running j → j.step ≠ .waiting) → s.takeStep = s) ∧
    ∀ (n : Fin 4) j, s.dev.phase = .running → s.restarting = false → s.slot n = .running j → j.step = .waiting →
      (∀ m, m ≠ n → (s.slot m).stepping = false) →
      let taken := Slot.running { j with step := .taken }
      let before := s.commandAtRouteStore = true ∨ (s.su.claimWaits = true ∧ s.rs.fairness < 16)
      (∀ f a, j.spec = .survey f a →
        (before → s.takeStep = s) ∧
        (¬ before → s.takeStep = (s.setRs { s.rs with fairness := 0 }).setSlot n taken)) ∧
      ∀ first last, j.spec = .refill first last →
        (s.ptTakes (.refill n) = false → s.takeStep = s) ∧
        (s.ptTakes (.refill n) = true →
          s.takeStep = (s.setPt (s.pt.withdraw (.refill n))).setSlot n taken)) ∧
  (∀ s : State,
    (s.dev.phase ≠ .running ∨ s.tablesHeld = true ∨ s.ptFree = false → s.takeVisit = s) ∧
    ((∀ g rest p, s.pt.waiting = g :: rest → .visit p ∉ g) → s.takeVisit = s) ∧
    ∀ (p : Fin 64) cursor g rest before after, s.dev.phase = .running → s.tablesHeld = false → s.ptFree = true →
      s.pt.waiting = g :: rest → g = before ++ .visit p :: after → (∀ q, .visit q ∉ before) →
      (s.port p).pass = .running cursor →
      s.takeVisit = s.setPt { s.pt.withdraw (.visit p) with taken := some (.visit ⟨p, cursor, false⟩) }) ∧
  ∀ s : State,
    ((∀ code ps, s.works code ps → (portsRead code ps s.pt).drop s.pt.reads.length = []) → s.takeRead = s) ∧
    (s.pmon.admits .read = false → s.takeRead = s) ∧
    ∀ w ps p q rest, s.cu = .busy (w :: ps) p → s.works (bits w 31 24) ps → s.pmon.admits .read = true →
      (portsRead (bits w 31 24) ps s.pt).drop s.pt.reads.length = q :: rest →
      s.takeRead = ((s.setPt { s.pt.withdraw .command with
        taken := some (.command (s.pt.reads ++ [(s.port q).live])) }).setPmon (s.pmon.withdraw .read)).setCu
        (.busy (w :: ps) .waiting)

/-- Every command answers a next state in every state, and so ends in no fault and in no refusal, and it leaves the queue
alone. -/
def Obligations.EveryCommandAnswersANextState : Prop :=
  ∀ c s, ∃ t, exec c s = .next t ∧ t.pending = s.pending

/-- The values of every block right after reset (R13, R26, R51, R88, R111, R127, R148, R161, R187). -/
def Obligations.HardwareResetValues : Prop :=
  let s := State.reset
  (s.rs.routes = [] ∧ s.rs.units = 0 ∧ s.rs.high = 61440 ∧ s.rs.low = 57344 ∧ s.rs.armed = true ∧ s.rs.fairness = 0) ∧
  (∀ d : Fin 16, s.rs.domain d = ⟨decide (d = 0), .discard, 0, 0⟩) ∧
  (s.pt.exits = [] ∧ s.pt.sets = [] ∧ s.pt.waiting = [] ∧ s.pt.taken = none) ∧
  (∀ p : Fin 64, s.port p = ⟨.none, .none, .unknown, false, none, .idle⟩) ∧
  (s.pmon.holdDown = 500 ∧ s.pmon.waiting = []) ∧
  (∀ n, (s.lane n).link = .disabled ∧ (s.lane n).queue = [] ∧ (s.lane n).held = 0 ∧ (s.lane n).owed = 0 ∧
    (s.lane n).reportsPending = 0 ∧ (s.lane n).weight = 1 ∧ (s.lane n).requestsTaken = 0 ∧
    (s.lane n).resultsSent = 0 ∧ (s.lane n).overruns = 0 ∧ (s.lane n).checkErrors = 0 ∧
    (s.lane n).malformed = 0 ∧ (s.lane n).sending = none) ∧
  (s.su.lookup = none ∧ s.su.probe = none ∧ s.su.current = 0 ∧ s.su.allowance = 1) ∧
  ((∀ n, s.slot n = .idle) ∧ s.je.last = 3 ∧ s.je.dropped = []) ∧
  (s.au.list = [] ∧ s.au.maskPort = false ∧ s.au.maskLane = false ∧ s.au.maskSpace = false) ∧
  (s.mp.state = .ready ∧ s.mp.command = [] ∧ s.mp.answer = [] ∧ s.mp.abortHeld = false ∧ s.mp.lost = false ∧
    s.cu = .idle)

/-! ## The management port -/

/-- WORD WRITE in READY: the first word of a command is refused with BADCMD, begins the collection, or completes a
command without parameters. In COLLECTING the word is appended; the last one hands the command to the CU, or is
answered BADLEN (R166, R167, R168, R170, R193). The catalogue allows these codes and counts and no others (R195 to R198). -/
def Obligations.CommandWordsAreCollected : Prop :=
  let handed := fun (t : State) (w : Word) ps => t.setCu (.busy (w :: ps) .held)
  ((∀ s w, s.dev.phase = .running → s.mp.state = .ready →
    (allowedCounts (bits w 31 24) = none →
      exec (.wordWrite w) s = .next (s.setMp
        { s.mp with state := .answering, command := [], answer := [0x01000000#32], lost := false })) ∧
    ∀ counts, allowedCounts (bits w 31 24) = some counts →
      (0 < bits w 4 0 →
        exec (.wordWrite w) s = .next (s.setMp { s.mp with state := .collecting, command := [w], lost := false })) ∧
      (bits w 4 0 = 0 → 0 ∈ counts →
        exec (.wordWrite w) s =
          .next (handed (s.setMp { s.mp with state := .working, command := [w], lost := false }) w [])) ∧
      (bits w 4 0 = 0 → 0 ∉ counts →
        exec (.wordWrite w) s = .next (s.setMp
          { s.mp with state := .answering, command := [], answer := [0x02000000#32], lost := false }))) ∧
  (∀ s w first ps counts, s.dev.phase = .running → s.mp.state = .collecting → s.mp.command = first :: ps →
    allowedCounts (bits first 31 24) = some counts →
      (ps.length + 1 < bits first 4 0 →
        exec (.wordWrite w) s = .next (s.setMp { s.mp with command := first :: (ps ++ [w]) })) ∧
      (ps.length + 1 = bits first 4 0 → ps.length + 1 ∈ counts →
        exec (.wordWrite w) s = .next (handed (s.setMp
          { s.mp with state := .working, command := first :: (ps ++ [w]) }) first (ps ++ [w]))) ∧
      (ps.length + 1 = bits first 4 0 → ps.length + 1 ∉ counts →
        exec (.wordWrite w) s = .next (s.setMp
          { s.mp with state := .answering, command := [], answer := [0x02000000#32] })))) ∧
  (∀ code n, (∃ counts, allowedCounts code = some counts ∧ n ∈ counts) ↔
    (code ∈ [0x80, 0x90, 0x91, 0x93, 0x94] ∧ n = 0) ∨
    (code ∈ [0x10, 0x11, 0x22, 0x23, 0x24, 0x32, 0x33, 0x37, 0x38, 0x40, 0x41, 0x50, 0x51, 0x52, 0x53, 0x71, 0x72,
      0x81] ∧ n = 1) ∨
    (code ∈ [0x25, 0x34, 0x35, 0x36] ∧ n = 2) ∨ (code = 0x31 ∧ n = 3) ∨ (code ∈ [0x20, 0x92] ∧ n = 4) ∨
    (code = 0x21 ∧ n = 5) ∨ (code = 0x12 ∧ (n = 4 ∨ n = 7)) ∨ (code = 0x13 ∧ (n = 5 ∨ n = 8)) ∨
    (code ∈ [0x14, 0x15, 0x16] ∧ (n = 2 ∨ n = 5)) ∨ (code = 0x30 ∧ 2 ≤ n ∧ n ≤ 31) ∨
    (code = 0x60 ∧ (n = 3 ∨ n = 6)) ∨ (code = 0x70 ∧ (n = 2 ∨ n = 8)))

/-- A word written while TAKE is 0 is lost and a word read while GIVE is 0 is zero: LOST is set, and nothing else
changes. While a hardware reset is in effect neither has any effect (R165, R169, R173, R185, R186). The status word
has the framing mark, and the five flags in their places; there is none while RESET# is held (R164, R185, R192). A transaction
delivers what its opcode byte and its word, each shifted most significant bit first, stand for, from its 40th clock on.
SDO is zero during the opcode byte, carries the status word or the next answer word most significant bit first, is zero
for every other word and beyond the 40th clock, and is not driven while CS# is high or a hardware reset is in effect
(R163, R172, R173, R185, R192). -/
def Obligations.StatusFlagsAndLostWords : Prop :=
  (∀ s w,
    (s.dev.phase ≠ .held → s.take = false → exec (.wordWrite w) s = .next (s.setMp { s.mp with lost := true })) ∧
    (s.dev.phase ≠ .held → s.give = false →
      exec .wordRead s = .next (s.setMp { s.mp with lost := true, readWord := 0#32 })) ∧
    (s.dev.phase = .held → exec (.wordWrite w) s = .next s ∧ exec .wordRead s = .next s)) ∧
  (∀ s : State, (s.dev.phase = .held → s.statusWord = none) ∧
    (s.dev.phase ≠ .held → ∃ w, s.statusWord = some w ∧ bits w 31 24 = 0x5A ∧ bits w 23 5 = 0 ∧
      (bits w 4 4 = 1 ↔ s.mp.lost = true) ∧ (bits w 3 3 = 1 ↔ s.au.list ≠ []) ∧
      (bits w 2 2 = 1 ↔ s.dev.phase = .clearing ∨ s.mp.state = .working) ∧
      (bits w 1 1 = 1 ↔ s.dev.phase = .running ∧ s.mp.state = .answering) ∧
      (bits w 0 0 = 1 ↔ s.dev.phase = .running ∧ (s.mp.state = .ready ∨ s.mp.state = .collecting)))) ∧
  (∀ (op : Byte) (w : Word) (beyond : List Bool),
    let sent := (List.range 8).map op.getMsbD ++ (List.range 32).map w.getMsbD
    (∀ k, k < 40 → spiReceive (sent.take k) = none) ∧
    (op = 0x2B#8 → spiReceive (sent ++ beyond) = some (.wordWrite w)) ∧
    (op = 0x4C#8 → spiReceive (sent ++ beyond) = some .wordRead) ∧
    (op = 0x7D#8 → spiReceive (sent ++ beyond) = some .abort) ∧
    (op ∉ [0x2B#8, 0x4C#8, 0x7D#8] → spiReceive (sent ++ beyond) = none)) ∧
  ∀ (s : State) csLow (op : Byte) k,
    (csLow = false ∨ s.dev.phase = .held → s.sdo csLow op k = none) ∧
    (csLow = true → s.dev.phase ≠ .held →
      (k < 8 ∨ 40 ≤ k → s.sdo csLow op k = some false) ∧
      ∀ w : Word,
        ((op = 0x31#8 ∧ s.statusWord = some w) ∨
          (op = 0x4C#8 ∧ s.dev.phase = .running ∧ s.mp.state = .answering ∧ ∃ rest, s.mp.answer = w :: rest) ∨
          (op = 0x4C#8 ∧ (s.dev.phase ≠ .running ∨ s.mp.state ≠ .answering) ∧ w = 0#32) ∨
          (op ≠ 0x31#8 ∧ op ≠ 0x4C#8 ∧ w = 0#32)) →
        8 ≤ k → s.sdo csLow op k = some (w.getMsbD (k - 8)))

/-- WORD READ in ANSWERING takes the next answer word, and the port is READY after the last (R172). ABORT acts by the
state of the port (R174, R175, R185, R186). -/
def Obligations.AnswerReadOrAborted : Prop :=
  (∀ s a rest, s.dev.phase = .running → s.mp.state = .answering → s.mp.answer = a :: rest →
    (rest ≠ [] → exec .wordRead s = .next (s.setMp { s.mp with readWord := a, answer := rest })) ∧
    (rest = [] → exec .wordRead s = .next (s.setMp { s.mp with readWord := a, answer := [], state := .ready }))) ∧
  (∀ s,
    (s.dev.phase ≠ .running → exec .abort s = .next s) ∧
    (s.dev.phase = .running →
      (s.mp.state = .ready → exec .abort s = .next s) ∧
      (s.mp.state = .collecting → exec .abort s = .next (s.setMp { s.mp with state := .ready, command := [] })) ∧
      (s.mp.state = .working → exec .abort s = .next (s.setMp { s.mp with abortHeld := true })) ∧
      (s.mp.state = .answering → exec .abort s = .next (s.setMp { s.mp with state := .ready, answer := [] }))))

/-- The end of a work phase: the answer's words, the first with the result code in bits 31–24 and the count in bits
4–0, stand in the buffer, or are discarded when an abort is held; the CU is IDLE (R170, R171, R175, R193). An answer has at
most 31 words after the first (R170). A claim that PORT READ, SET PARAMETERS or READ PARAMETERS has left is made first, once
its block takes it, and the answer is formed from it; until then it is presented and waits (R84, R85, R171, R179, R180; that
the row's step ends before that claim is the model's, DESIGN CHOICE, notes/assumptions/12.md). -/
def Obligations.WorkPhaseEnds : Prop :=
  (∀ s ws a, s.dev.phase = .running → s.cu = .busy ws (.answered a) →
    (s.mp.abortHeld = false → a.words.length ≤ 31 →
      ∃ first, bits first 31 24 = a.code.value ∧ bits first 23 5 = 0 ∧ bits first 4 0 = a.words.length ∧
        exec .workPhaseEnd s = .next ((s.setMp
          { s.mp with state := .answering, command := [], answer := first :: a.words }).setCu .idle)) ∧
    (s.mp.abortHeld = true →
      exec .workPhaseEnd s = .next ((s.setMp
        { s.mp with state := .ready, command := [], answer := [], abortHeld := false }).setCu .idle))) ∧
  (∀ s ws p words changes, s.dev.phase = .running → s.cu = .busy ws (.counting p words changes) →
    (s.ptAdmits .command = true → exec .workPhaseEnd s = exec .workPhaseEnd (s.answered .ok
      (words ++ [wordOf (changes * 2 ^ 24 + s.pt.exits.countP fun e => decide (e.port = p))]))) ∧
    (s.ptAdmits .command = false → exec .workPhaseEnd s = .next (s.setPt (s.pt.offer .command)))) ∧
  (∀ s ws hold, s.dev.phase = .running → s.cu = .busy ws (.writingHold hold) →
    let h := hold.getD s.pmon.holdDown
    (s.pmon.admits .command = true →
      exec .workPhaseEnd s = exec .workPhaseEnd ((s.setPmon { s.pmon with holdDown := h }).answered .ok
        [wordOf h, wordOf s.rs.high, wordOf s.rs.low])) ∧
    (s.pmon.admits .command = false → exec .workPhaseEnd s = .next (s.setPmon (s.pmon.offer .command)))) ∧
  (∀ s ws high low, s.dev.phase = .running → s.cu = .busy ws (.readingHold high low) →
    (s.pmon.admits .command = true → exec .workPhaseEnd s = exec .workPhaseEnd (s.answered .ok
      [wordOf s.pmon.holdDown, wordOf high, wordOf low])) ∧
    (s.pmon.admits .command = false → exec .workPhaseEnd s = .next (s.setPmon (s.pmon.offer .command)))) ∧
  ∀ s ws marks, s.dev.phase = .running → s.cu = .busy ws (.writingMarks marks) →
    (s.rsFree = false → exec .workPhaseEnd s = .next s) ∧
    (s.rsFree = true →
      (marks = none → exec .workPhaseEnd s = exec .workPhaseEnd (s.answered .ok
        [wordOf s.pmon.holdDown, wordOf s.rs.high, wordOf s.rs.low])) ∧
      ∀ high low, marks = some (high, low) → exec .workPhaseEnd s = exec .workPhaseEnd
        ((s.setRs { s.rs with high := high, low := low }).evalWatermark.answered .ok
          [wordOf s.pmon.holdDown, wordOf high, wordOf low]))

/-- The step of a host command does not take place unless the CU holds that command, not yet applied
(notes/assumptions/1.md, DESIGN CHOICE). Nor does it unless the blocks that the command claims take its claims; until then
its claims are presented, and it waits: a Route Store command for the step claim in progress (R16), a command that claims the
Path Table or the port table for the claim in progress there and for those presented before its own (R36, R84). Only a command
that one of its checks before any claim refuses, each with its own cause, or a JOB START that finds no slot, is answered
whatever is in progress (R132, R171). That a claim is presented when the command's row first cannot take it is the model's
(DESIGN CHOICE, notes/assumptions/13.md). A claim of a command waits at the Route Store from then on (R17), or is in progress
there while its reference claim waits (R18). The reads of ports within a claim on the Path Table are claims of their own on the
port table, one after another; a read before which another claim waits is presented and waits (R84). -/
def Obligations.HostCommandsNeedTheirCommand : Prop :=
  (∀ c code s, hostCode c = some code → (∀ ps, ¬ s.holds code ps) → exec c s = .next s) ∧
  (∀ c code s w ps p, hostCode c = some code → s.dev.phase = .running → s.cu = .busy (w :: ps) p →
    (p = .held ∨ p = .waiting ∨ p = .referring ∨ p = .restartLeft ∨ p = .restartPorts) → bits w 31 24 = code → s.admits code ps = false →
    ((∀ r, ¬ checkFails c ps s r) →
      exec c s = .next (((s.setCu (.busy (w :: ps) .waiting)).setPt
        (if claimsPathTable code ps then s.pt.offer .command else s.pt)).setPmon
        (if claimsPortTable code then s.pmon.offer .command else s.pmon))) ∧
    ∀ r, checkFails c ps s r → ∃ first, checkFails c ps s first ∧ exec c s = .next (s.answered first [])) ∧
  (∀ (s : State) code ps, s.admits code ps = true ↔
    ((0x10 ≤ code ∧ code ≤ 0x16) ∨ code = 0x93 ∨ code = 0x94 → s.rsFree = true) ∧
    (code = 0x92 → s.rsFree = true ∨ s.pmon.admits .command = true) ∧
    (claimsPathTable code ps = true → (∃ reads, s.pt.taken = some (.command reads)) ∨ s.ptAdmits .command = true) ∧
    (claimsPortTable code = true → s.pmon.admits .command = true)) ∧
  (∀ code ps, (claimsPathTable code ps = true ↔ (0x20 ≤ code ∧ code ≤ 0x38) ∨
      (code = 0x70 ∧ bits (param ps 0) 31 24 = 1 ∧ bits (param ps 0) 23 16 = 3)) ∧
    (claimsPortTable code = true ↔ code ∈ [0x40, 0x41])) ∧
  (∀ s : State,
    let job := fun j : Job => (∃ n, s.slot n = .running j) ∨ j ∈ s.je.dropped
    (s.rsFree = true ↔ ∀ j, job j → j.step = .taken → ∀ f a, j.spec ≠ .survey f a) ∧
    (s.ptFree = true ↔ s.pt.taken = none ∧ ∀ j, job j → j.step = .taken → ∀ first last, j.spec ≠ .refill first last) ∧
    (s.commandAtRouteStore = true ↔
      (∃ ws marks, s.cu = .busy ws (.writingMarks marks)) ∨ (∃ ws, s.cu = .busy ws .referring) ∨
      ∃ w ps, s.cu = .busy (w :: ps) .waiting ∧
        ((0x10 ≤ bits w 31 24 ∧ bits w 31 24 ≤ 0x16) ∨ (0x92 ≤ bits w 31 24 ∧ bits w 31 24 ≤ 0x94)))) ∧
  (∀ (s : State) c,
    (s.ptTakes c = true ↔ s.ptFree = true ∧ ∃ g rest, s.pt.waiting = g :: rest ∧ c ∈ g) ∧
    (s.ptAdmits c = true ↔ s.ptFree = true ∧ (s.pt.waiting = [] ∨ ∃ g rest, s.pt.waiting = g :: rest ∧ c ∈ g)) ∧
    s.pt.offer c = { s.pt with
      waiting := if c ∈ s.pt.waiting.flatten then s.pt.waiting else s.pt.waiting ++ [[c]] }) ∧
  (∀ (m : PortMonitor) c,
    (m.admits c = true ↔ m.waiting = [] ∨ ∃ g rest, m.waiting = g :: rest ∧ c ∈ g) ∧
    m.offer c = { m with waiting := if c ∈ m.waiting.flatten then m.waiting else m.waiting ++ [[c]] }) ∧
  ∀ (m : PortMonitor) p ports,
    m.readPorts [] = (m, []) ∧
    (m.admits .read = false → m.readPorts (p :: ports) = (m.offer .read, [])) ∧
    (m.admits .read = true → m.readPorts (p :: ports) =
      (((m.withdraw .read).readPorts ports).1, m.ports[p].live :: ((m.withdraw .read).readPorts ports).2))

/-- A command that is answered with another code than OK has changed nothing but the CU's answer, which carries no
word (R177); no claim of it waits any more, the reference claim of ROUTE ADD and ROUTE CHANGE included. A command with an
argument that its rule refuses, as `badArgs` lists them command by command, is answered BADARG before it claims any block (R14,
R15, R19, R38, R77, R85, section 5.11, R125, R131, R145, R147, R156, R179). -/
def Obligations.RefusedCommandsHaveNoEffect : Prop :=
  (∀ c code s ps, hostCode c = some code → s.holds code ps → badArgs c ps →
    exec c s = .next (s.answered .badArg [])) ∧
  ∀ c code s t ws p a, hostCode c = some code → s.cu = .busy ws p →
    (p = .held ∨ p = .waiting ∨ p = .referring ∨ p = .restartLeft ∨ p = .restartPorts) → exec c s = .next t →
    t.cu = .busy ws (.answered a) → a.code ≠ .ok → a.words = [] ∧
      (t = s.answered a.code [] ∨
        ((c = .routeAdd ∨ c = .routeChange) ∧ t = (s.setPt (s.pt.withdraw .reference)).answered a.code []))

/-! ## Operand layouts -/

/-- Reading the parameter groups that the manual's layouts write gives back what was written: an identity, whose key may
have no one beyond the prefix length (R2), a target,
the attributes, EXIT CREATE's, SET CREATE's, SET CHANGE's and PROBE's fields, JOB START's kinds (R125, R131, R194, R195,
R196, R197, R198). That SET CHANGE reads a field whose selection says keep as kept, with 0 written there, rests on the model's
reading that such a field is not checked (DEDUCED, notes/assumptions/7.md). -/
def Obligations.OperandLayoutsAreRead : Prop :=
  (∀ (i : Identity) (others : List Word), i.len ≤ i.family.width →
    identityOf (i.layout ++ others) (others.length + 1) = some i) ∧
  (∀ i : Identity, i.keyOk = true ↔ ∀ k, i.len ≤ k → i.key.bit k = false) ∧
  (∀ t : Target, t.inRange → targetOf t.word = some t) ∧
  (∀ e : Exit, e.id ≤ 8191 → (∀ v, e.vlan = some v → 1 ≤ v ∧ v ≤ 4094) → 64 ≤ e.mtu → e.mtu ≤ 16383 →
    exitCreateFields e.layout = some { e with routeRefs := 0, memberRefs := 0, pinRefs := 0, users := [] }) ∧
  (∀ c : SetCreate, c.id ≤ 4095 → (∀ b, c.backup = some b → b ≤ 4095) →
    (∀ x ∈ c.entries, x.1 ≤ 8191 ∧ 1 ≤ x.2 ∧ x.2 ≤ 15) → setCreateFields c.layout = some c) ∧
  (∀ (c : RouteClass) (tag : BitVec 16) (others : Nat), others < 256 →
    let w := wordOf (c.code * 2 ^ 24 + others * 2 ^ 16 + tag.toNat)
    attrClass w = some c ∧ attrTag w = tag) ∧
  (∀ id (c : SetChange), id ≤ 4095 → (∀ b, c.backup = some (some b) → b ≤ 4095) →
    setChangeFields [wordOf (id * 2 ^ 16),
      pack8 (if c.rejoin.isSome then 1 else 0) (if c.emptyVerdict.isSome then 1 else 0)
        (match c.backup with | none => 0 | some (some _) => 1 | some none => 2) 0,
      wordOf ((match c.rejoin with | none => 0 | some x => x.code) * 2 ^ 24
        + (match c.emptyVerdict with | none => 0 | some x => x.code) * 2 ^ 16
        + (match c.backup with | some (some b) => b | _ => 0))] = some (id, c)) ∧
  (∀ a : Ask, probeFields (pack8 a.domain a.key.family.code (if a.mark then 1 else 0) 0 :: wordOf a.hash.toNat ::
    (match a.key with
      | .narrow k => [k]
      | .wide k => [k.extractLsb' 96 32, k.extractLsb' 64 32, k.extractLsb' 32 32, k.extractLsb' 0 32])) = some a) ∧
  (∀ f a, (JobSpec.survey f a).inRange → jobSpecOf (surveyWords f a) = some (.survey f a)) ∧
  ∀ first last, (JobSpec.refill first last).inRange →
    jobSpecOf [wordOf (2 * 2 ^ 24), pack16 first last] = some (.refill first last)

/-- Every message laid out as R190 has it, with its check word (R189), is received as its row's command. A message that fails
its check, by its length or its check word, is received as CHECK_FAILURE, and one that passes it with a reserved kind, family
or reported-state code, or with a length that does not fit, as MALFORMED_MESSAGE (R94, R96, R190). The receiver takes the
symbols one by one: data belongs to the message that is open, and is discarded when none is; a start marker opens a message,
and one that is open is closed there, as an arrival of the words so far; an end marker closes the open message, and is ignored
when none is. So a message that the transmitter frames is received as its words, and one that it abandons stays open; the
line of a lane that sends a message carries its frame, that of any other lane the idle pattern or nothing (R91, R185, R188). -/
def Obligations.MessagesAreReceived : Prop :=
  (∀ c n ws, messageLayout c = some ws → arrivalLane c = some n → receiveMessage n (withCheckWord ws) = c) ∧
  (∀ n ws, (ws.length < 2 ∨ 7 < ws.length ∨
      ∃ sent check, ws = sent ++ [check] ∧ bits check 15 0 ≠ (crc16 sent).toNat) →
    receiveMessage n ws = .checkFailure n ws) ∧
  (∀ n ws w sent check, ws = w :: sent ++ [check] → 2 ≤ ws.length → ws.length ≤ 7 →
    bits check 15 0 = (crc16 (w :: sent)).toNat →
    bits w 31 28 ∉ [1, 2] ∨
      (bits w 31 28 = 1 ∧ (bits w 27 26 ∉ [1, 2] ∨ (bits w 27 26 = 1 ∧ ws.length ≠ 4) ∨
        (bits w 27 26 = 2 ∧ ws.length ≠ 7))) ∨
      (bits w 31 28 = 2 ∧ (bits w 27 26 ∉ [1, 2] ∨ ws.length ≠ 2)) →
    receiveMessage n ws = .malformedMessage n ws) ∧
  (∀ (opened : List Word) (w : Word) (rest : List Symbol),
    let next := fun o => receiveSymbols o rest
    receiveSymbols none [] = ([], none) ∧ receiveSymbols (some opened) [] = ([], some opened) ∧
    receiveSymbols none (.data w :: rest) = next none ∧
    receiveSymbols (some opened) (.data w :: rest) = next (some (opened ++ [w])) ∧
    receiveSymbols none (.startMarker :: rest) = next (some []) ∧
    receiveSymbols (some opened) (.startMarker :: rest) = (opened :: (next (some [])).1, (next (some [])).2) ∧
    receiveSymbols none (.endMarker :: rest) = next none ∧
    receiveSymbols (some opened) (.endMarker :: rest) = (opened :: (next none).1, (next none).2)) ∧
  (∀ ws rest, receiveSymbols none (.startMarker :: (ws.map Symbol.data ++ .endMarker :: rest)) =
    (ws :: (receiveSymbols none rest).1, (receiveSymbols none rest).2)) ∧
  (∀ ws : List Word, frame ws = .startMarker :: (ws.map .data ++ [.endMarker])) ∧
  (∀ ws k, receiveSymbols none (abandonedFrame ws k) = ([], some (ws.take k))) ∧
  ∀ (s : State) n,
    (s.dev.phase ≠ .running ∨ (s.lane n).link = .disabled → s.line n = .quiet) ∧
    (s.dev.phase = .running → (s.lane n).link ≠ .disabled →
      ((s.lane n).sending = none → s.line n = .idlePattern) ∧
      (∀ c, (s.lane n).sending = some (.credit c) →
        s.line n = .message (frame (withCheckWord [wordOf (9 * 2 ^ 28 + c)]))) ∧
      ∀ tag ask r rest, (s.lane n).sending = some .result → (s.lane n).queue = ⟨tag, ask, .done r⟩ :: rest →
        s.line n = .message (frame (withCheckWord (r.word0 8 tag.toNat :: r.exitWords))))

/-! ## Domains, settings and identification -/

/-- DOMAIN SET writes both fields of a domain (R14); DOMAIN READ answers the domain and changes nothing (R15). -/
def Obligations.DomainSetAndRead : Prop :=
  (∀ s ps, s.works 0x10 ps →
    (∀ (d : Fin 16) en miss, bits (param ps 0) 31 24 = d.val → bits (param ps 0) 23 16 = enabledCode en →
      bits (param ps 0) 15 8 = miss.code →
      exec .domainSet s = .next ((s.setRs (s.rs.updDomain d fun x =>
        { x with enabled := en, miss := miss })).answered .ok [])) ∧
    ((15 < bits (param ps 0) 31 24 ∨ bits (param ps 0) 23 16 ∉ [1, 2] ∨ bits (param ps 0) 15 8 ∉ [2, 3]) →
      exec .domainSet s = .next (s.answered .badArg []))) ∧
  (∀ s ps, s.works 0x11 ps →
    (15 < bits (param ps 0) 31 24 → exec .domainRead s = .next (s.answered .badArg [])) ∧
    ∀ d : Fin 16, bits (param ps 0) 31 24 = d.val → ∃ w, bits w 31 24 = enabledCode (s.rs.domain d).enabled ∧
      bits w 23 16 = (s.rs.domain d).miss.code ∧ bits w 15 0 = 0 ∧
      exec .domainRead s = .next (s.answered .ok
        [w, BitVec.ofNat 32 (s.rs.domain d).narrowCount, BitVec.ofNat 32 (s.rs.domain d).wideCount]))

/-- IDENTIFY answers the same six words in every state; READ SPACE answers the units, the watermarks and the arm state.
Neither changes any state (R178, R181, R198). -/
def Obligations.IdentifyAndReadSpace : Prop :=
  (∀ s ps, s.works 0x90 ps → exec .identify s = .next (s.answered .ok
    [0x0D570240#32, 0x00000001#32, 0x00010000#32, 0x20001000#32, 0x10400404#32, 0x00000049#32])) ∧
  (∀ s ps, s.works 0x94 ps → exec .readSpace s = .next (s.answered .ok
    [BitVec.ofNat 32 s.rs.units, BitVec.ofNat 32 s.rs.high, BitVec.ofNat 32 s.rs.low,
      if s.rs.armed then 0x01000000#32 else 0#32]))

/-- READ PARAMETERS, and SET PARAMETERS: the watermarks are written as a pair and evaluated, the hold-down is written,
and the values in force are answered (R12, R179, R180, R198). Each makes two claims, in either order: the row makes the Route
Store's, that of SET PARAMETERS unless a claim is in progress there, and WORK_PHASE_END the other when its block takes it
(R16, R84; that the Route Store's is the first is the model's, notes/assumptions/12.md, DESIGN CHOICE).
The evaluation of the watermark re-arms, posts SPACE and disarms, or does nothing (R11). -/
def Obligations.ParametersAndWatermark : Prop :=
  (∀ s ps, s.works 0x93 ps →
    let t := s.withProgress (.readingHold s.rs.high s.rs.low)
    exec .readParameters s = .next t ∧
    (t.pmon.admits .command = true → exec .workPhaseEnd t = exec .workPhaseEnd (t.answered .ok
      [BitVec.ofNat 32 s.pmon.holdDown, BitVec.ofNat 32 s.rs.high, BitVec.ofNat 32 s.rs.low]))) ∧
  (∀ s ps hold marks h high low, s.works 0x92 ps →
    ((bits (param ps 0) 31 24 = 0 ∧ hold = none ∧ h = s.pmon.holdDown) ∨
      (bits (param ps 0) 31 24 = 1 ∧ hold = some h ∧ h = bits (param ps 1) 15 0 ∧ h ≤ 10000)) →
    ((bits (param ps 0) 23 16 = 0 ∧ marks = none ∧ high = s.rs.high ∧ low = s.rs.low) ∨
      (bits (param ps 0) 23 16 = 1 ∧ marks = some (high, low) ∧ high = (param ps 2).toNat ∧ low = (param ps 3).toNat ∧
        1 ≤ high ∧ high ≤ 65536 ∧ low < high)) →
    let written := if marks = none then s else (s.setRs { s.rs with high := high, low := low }).evalWatermark
    (s.rsFree = true →
      let t := written.withProgress (.writingHold hold)
      exec .setParameters s = .next t ∧
      (t.pmon.admits .command = true → exec .workPhaseEnd t = exec .workPhaseEnd
        ((t.setPmon { t.pmon with holdDown := h }).answered .ok
          [BitVec.ofNat 32 h, BitVec.ofNat 32 high, BitVec.ofNat 32 low]))) ∧
    (s.rsFree = false →
      exec .setParameters s =
        .next ((s.setPmon { s.pmon with holdDown := h }).withProgress (.writingMarks marks)))) ∧
  (∀ s : State,
    (s.rs.armed = false → s.rs.units < s.rs.low → s.evalWatermark = s.setRs { s.rs with armed := true }) ∧
    (s.rs.armed = true → s.rs.high ≤ s.rs.units →
      s.evalWatermark = (s.setRs { s.rs with armed := false }).post (.space s.rs.units)) ∧
    (s.rs.armed = false → s.rs.low ≤ s.rs.units → s.evalWatermark = s) ∧
    (s.rs.armed = true → s.rs.units < s.rs.high → s.evalWatermark = s))

/-! ## Routes -/

/-- ROUTE ADD: the order of its refusals, BADKEY first, and the insertion (R9, R19, R20, R21). A target that is a path set or an
exit takes a reference, within a reference claim on the Path Table; while that waits its turn there, the Route Store keeps the
command's claim in progress (R16, R18, R36; that the reference claim is presented with the row is the model's, DESIGN CHOICE,
notes/assumptions/13.md). -/
def Obligations.RouteAddInserts : Prop :=
  ∀ s ps i t c, s.works 0x12 ps → identityOf ps 3 = some i → targetOf (param ps i.after) = some t →
    attrClass (param ps (i.after + 1)) = some c →
    (i.keyOk = false → exec .routeAdd s = .next (s.answered .badKey [])) ∧
    (i.keyOk = true →
    (t.counted = true ↔ (∃ x, t = .pathSet x) ∨ ∃ x, t = .exit x) ∧
    (t.counted = true → s.ptAdmits .reference = false →
      exec .routeAdd s = .next ((s.setPt (s.pt.offer .reference)).withProgress .referring)) ∧
    ((t.counted = true → s.ptAdmits .reference = true) →
    let r : Route := ⟨i, t, c, attrTag (param ps (i.after + 1)), false, 0⟩
    let u := if t.counted then s.setPt (s.pt.withdraw .reference) else s
    (s.pt.stands t = false → exec .routeAdd s = .next (u.answered .noTarget [])) ∧
    (s.pt.stands t = true → (∃ x ∈ s.rs.routes, x.ident = i) → exec .routeAdd s = .next (u.answered .exists [])) ∧
    (s.pt.stands t = true → (∀ x ∈ s.rs.routes, x.ident ≠ i) → 65536 < s.rs.units + i.family.size →
      exec .routeAdd s = .next (u.answered .noSpace [])) ∧
    (s.pt.stands t = true → (∀ x ∈ s.rs.routes, x.ident ≠ i) → s.rs.units + i.family.size ≤ 65536 →
      ∃ rs', rs'.routes.Perm (r :: s.rs.routes) ∧ rs'.units = s.rs.units + i.family.size ∧ rs'.high = s.rs.high ∧
        rs'.low = s.rs.low ∧ rs'.armed = s.rs.armed ∧ rs'.fairness = s.rs.fairness ∧
        (∀ d, rs'.domain d = if d = i.domain then
          (match i.family with
            | .narrow => { s.rs.domain d with narrowCount := (s.rs.domain d).narrowCount + 1 }
            | .wide => { s.rs.domain d with wideCount := (s.rs.domain d).wideCount + 1 })
          else s.rs.domain d) ∧
        exec .routeAdd s = .next ((((u.setPt (u.pt.countRoute (· + 1) t)).setRs rs').evalWatermark).answered .ok
          [BitVec.ofNat 32 (s.rs.units + i.family.size)]))))

/-- ROUTE CHANGE: its refusals, BADKEY first, and the fields it writes as selected, with the take on the new target
before the release on the old (R19, R20, R22). When it writes a target and the new one or the old is a path set or an exit, it
does so within a reference claim on the Path Table; while that waits its turn there, the Route Store keeps the command's claim
in progress (R16, R18, R36; that the reference claim is presented with the row is the model's, DESIGN CHOICE,
notes/assumptions/13.md). -/
def Obligations.RouteChangeWrites : Prop :=
  ∀ s ps i t c, s.works 0x13 ps → identityOf ps 4 = some i →
    let sel := param ps i.after
    (bits sel 0 0 = 1 → targetOf (param ps (i.after + 1)) = some t) →
    (bits sel 1 1 = 1 → attrClass (param ps (i.after + 2)) = some c) →
    (i.keyOk = false → exec .routeChange s = .next (s.answered .badKey [])) ∧
    (i.keyOk = true →
    ((∀ x ∈ s.rs.routes, x.ident ≠ i) → exec .routeChange s = .next (s.answered .absent [])) ∧
    ∀ r, s.rs.find? i = some r →
      let refers := bits sel 0 0 = 1 ∧ (t.counted = true ∨ r.target.counted = true)
      let u := if refers then s.setPt (s.pt.withdraw .reference) else s
      (refers → s.ptAdmits .reference = false →
        exec .routeChange s = .next ((s.setPt (s.pt.offer .reference)).withProgress .referring)) ∧
      ((refers → s.ptAdmits .reference = true) →
      (bits sel 0 0 = 1 → s.pt.stands t = false → exec .routeChange s = .next (u.answered .noTarget [])) ∧
      ((bits sel 0 0 = 1 → s.pt.stands t = true) →
        exec .routeChange s = .next (((u.setPt
          (if bits sel 0 0 = 1 then (u.pt.countRoute (· + 1) t).countRoute (· - 1) r.target else u.pt)).setRs
          (s.rs.updRoute i fun x =>
            { x with target := if bits sel 0 0 = 1 then t else x.target
                     cls := if bits sel 1 1 = 1 then c else x.cls
                     tag := if bits sel 2 2 = 1 then attrTag (param ps (i.after + 2)) else x.tag
                     mark := if bits sel 3 3 = 1 then false else x.mark
                     hits := if bits sel 3 3 = 1 then 0 else x.hits })).answered .ok []))))

/-- ROUTE DROP refuses a bad key and withdraws the route (R10, R19, R23). The reference of a target that is a path set or an exit
is released within a reference claim on the Path Table; while that waits its turn there, the Route Store keeps the command's
claim in progress (R16, R18, R36; that the reference claim is presented with the row is the model's, DESIGN CHOICE,
notes/assumptions/13.md). -/
def Obligations.RouteDropWithdraws : Prop :=
  ∀ s ps i, s.works 0x14 ps → identityOf ps 1 = some i →
    (i.keyOk = false → exec .routeDrop s = .next (s.answered .badKey [])) ∧
    (i.keyOk = true →
    ((∀ x ∈ s.rs.routes, x.ident ≠ i) → exec .routeDrop s = .next (s.answered .absent [])) ∧
    ∀ r, s.rs.find? i = some r →
      (r.target.counted = true → s.ptAdmits .reference = false →
        exec .routeDrop s = .next ((s.setPt (s.pt.offer .reference)).withProgress .referring)) ∧
      ((r.target.counted = true → s.ptAdmits .reference = true) →
      let u := if r.target.counted then s.setPt (s.pt.withdraw .reference) else s
      ∃ rs', rs'.routes = s.rs.routes.filter (fun x => x.ident != i) ∧
      rs'.units = s.rs.units - i.family.size ∧ rs'.high = s.rs.high ∧ rs'.low = s.rs.low ∧ rs'.armed = s.rs.armed ∧
      rs'.fairness = s.rs.fairness ∧
      (∀ d, rs'.domain d = if d = i.domain then
        (match i.family with
          | .narrow => { s.rs.domain d with narrowCount := (s.rs.domain d).narrowCount - 1 }
          | .wide => { s.rs.domain d with wideCount := (s.rs.domain d).wideCount - 1 })
        else s.rs.domain d) ∧
      exec .routeDrop s = .next ((((u.setRs rs').setPt (u.pt.countRoute (· - 1) r.target)).evalWatermark).answered .ok
        [BitVec.ofNat 32 (s.rs.units - i.family.size)])))

/-- ROUTE READ in its three modes: the route of the identity, the first route after it in table order, either with
BADKEY for a bad key, the first route of the table (R4, R19, R24). ROUTE FIND answers the longest match of a full key. Neither changes any state (R25). The answer
is the route record: identity, key words, target, attributes, mark and hit count (R195). -/
def Obligations.RouteReadAndFind : Prop :=
  let record := fun r : Route =>
    pack8 r.ident.domain (match r.ident.family with | .narrow => 1 | .wide => 2) r.ident.len 0 ::
      ((match r.ident.key with
        | .narrow k => [k]
        | .wide k => [k.extractLsb' 96 32, k.extractLsb' 64 32, k.extractLsb' 32 32, k.extractLsb' 0 32]) ++
      [(match r.target with
        | .pathSet i => wordOf (2 ^ 24 + i)
        | .exit i => wordOf (2 * 2 ^ 24 + i)
        | .discard => wordOf (3 * 2 ^ 24)
        | .control => wordOf (4 * 2 ^ 24)),
      wordOf ((match r.cls with | .static => 1 | .learned => 2) * 2 ^ 24 + r.tag.toNat),
      wordOf ((if r.mark then 1 else 0) * 2 ^ 24), wordOf r.hits])
  (∀ s ps, s.works 0x15 ps →
    (bits (param ps 0) 7 0 = 3 →
      (s.rs.routes = [] → exec .routeRead s = .next (s.answered .absent [])) ∧
      ∀ r rest, s.rs.routes = r :: rest → exec .routeRead s = .next (s.answered .ok (record r))) ∧
    (∀ i, identityOf ps 1 = some i → i.keyOk = false → (bits (param ps 0) 7 0 = 1 ∨ bits (param ps 0) 7 0 = 2) →
      exec .routeRead s = .next (s.answered .badKey [])) ∧
    ∀ i, identityOf ps 1 = some i → i.keyOk = true → s.rs.lawful →
      (bits (param ps 0) 7 0 = 1 →
        ((∀ r ∈ s.rs.routes, r.ident ≠ i) → exec .routeRead s = .next (s.answered .absent [])) ∧
        ∀ r ∈ s.rs.routes, r.ident = i → exec .routeRead s = .next (s.answered .ok (record r))) ∧
      (bits (param ps 0) 7 0 = 2 →
        ((∀ r ∈ s.rs.routes, i.before r.ident = false) → exec .routeRead s = .next (s.answered .absent [])) ∧
        ∀ r ∈ s.rs.routes, i.before r.ident = true →
          (∀ x ∈ s.rs.routes, i.before x.ident = true → x ≠ r → r.ident.before x.ident = true) →
          exec .routeRead s = .next (s.answered .ok (record r)))) ∧
  (∀ s ps (d : Fin 16) f, s.works 0x16 ps → bits (param ps 0) 31 24 = d.val → bits (param ps 0) 23 16 = f.code →
    ps.length = f.keyWords + 1 →
    (s.rs.longestMatch d (keyAt ps 1 f) = none → exec .routeFind s = .next (s.answered .absent [])) ∧
    ∀ r, s.rs.longestMatch d (keyAt ps 1 f) = some r → exec .routeFind s = .next (s.answered .ok (record r)))

/-- The matched route is the candidate with the greatest prefix length, candidates being compared bit by bit from the
most significant; there is none exactly when there is no candidate (R5). -/
def Obligations.LongestPrefixMatch : Prop :=
  ∀ (rs : RouteStore) d k,
    (∀ r, rs.longestMatch d k = some r → r ∈ rs.routes ∧ r.matchesKey d k ∧
      ∀ x ∈ rs.routes, x.matchesKey d k → x.ident.len ≤ r.ident.len) ∧
    (rs.longestMatch d k = none ↔ ∀ x ∈ rs.routes, ¬ x.matchesKey d k)

/-! ## Exits -/

/-- EXIT CREATE makes a FREE exit ACTIVE (R39); EXIT DELETE frees an exit that nothing references (R42). -/
def Obligations.ExitCreateAndDelete : Prop :=
  (∀ s ps e, s.works 0x20 ps → exitCreateFields ps = some e →
    ((s.pt.exit? e.id).isSome = true → exec .exitCreate s = .next (s.answered .exists [])) ∧
    (s.pt.exit? e.id = none → ∃ exits, exits.Perm (e :: s.pt.exits) ∧
      exec .exitCreate s = .next ((s.setPt { s.pt with exits := exits }).answered .ok []))) ∧
  (∀ s ps id, s.works 0x24 ps → bits (param ps 0) 31 16 = id → id ≤ 8191 →
    (s.pt.exit? id = none → exec .exitDelete s = .next (s.answered .absent [])) ∧
    ∀ e, s.pt.exit? id = some e →
      (0 < e.routeRefs + e.memberRefs + e.pinRefs → exec .exitDelete s = .next (s.answered .inUse [])) ∧
      (e.routeRefs + e.memberRefs + e.pinRefs = 0 →
        exec .exitDelete s = .next
          ((s.setPt { s.pt with exits := s.pt.exits.filter fun x => x.id != id }).answered .ok [])))

/-- EXIT CHANGE writes the selected fields, EXIT ENABLE and EXIT DISABLE the admin state; each visits the member of
every set in the user list, and answers ABSENT for a FREE exit (R40, R41). Each visit reads the effective state of the exit's
port as now written, the reads one after another; while one of them waits at the port table, the command's claim is in progress
at the Path Table (R36, R84). That the row makes all the reads it can in one step is the model's (DESIGN CHOICE,
notes/assumptions/24.md), and that a field whose selection says keep is not checked is its reading (DEDUCED,
notes/assumptions/7.md). -/
def Obligations.ExitCommandsVisitUsers : Prop :=
  ∀ s ps id, bits (param ps 0) 31 16 = id → id ≤ 8191 →
    (s.works 0x22 ps → s.pt.exit? id = none → exec .exitEnable s = .next (s.answered .absent [])) ∧
    (s.works 0x23 ps → s.pt.exit? id = none → exec .exitDisable s = .next (s.answered .absent [])) ∧
    (s.works 0x21 ps → ¬ badArgs .exitChange ps → s.pt.exit? id = none →
      exec .exitChange s = .next (s.answered .absent [])) ∧
    ∀ e, s.pt.exit? id = some e →
      let writes := fun c code e' =>
        let ports := e.users.map fun _ => e'.port
        let r := s.readsOf ports
        portsRead code ps s.pt = ports ∧
        (r.2.length < e.users.length → exec c s = .next (s.reading r)) ∧
        (e.users.length ≤ r.2.length → ∃ pt', s.pt.exitWritten pt' r.2 id e' ∧
          exec c s = .next (((s.setPmon r.1).setPt pt').answered .ok []))
      (s.works 0x22 ps → writes .exitEnable 0x22 { e with enabled := true }) ∧
      (s.works 0x23 ps → writes .exitDisable 0x23 { e with enabled := false }) ∧
      ∀ (port : Fin 64) addr vlan mtu, s.works 0x21 ps →
        ((bits (param ps 1) 31 24 = 0 ∧ port = e.port) ∨
          (bits (param ps 1) 31 24 = 1 ∧ port.val = bits (param ps 0) 7 0)) →
        ((bits (param ps 1) 23 16 = 0 ∧ addr = e.addr) ∨
          (bits (param ps 1) 23 16 = 1 ∧ addr = addrOf (param ps 2) (param ps 3))) →
        ((bits (param ps 1) 15 8 = 0 ∧ vlan = e.vlan) ∨ (bits (param ps 1) 15 8 = 2 ∧ vlan = none) ∨
          (bits (param ps 1) 15 8 = 1 ∧ vlan = some (bits (param ps 3) 15 0) ∧ 1 ≤ bits (param ps 3) 15 0 ∧
            bits (param ps 3) 15 0 ≤ 4094)) →
        ((bits (param ps 1) 7 0 = 0 ∧ mtu = e.mtu) ∨
          (bits (param ps 1) 7 0 = 1 ∧ mtu = bits (param ps 4) 15 0 ∧ 64 ≤ mtu ∧ mtu ≤ 16383)) →
        writes .exitChange 0x21 { e with port := port, addr := addr, vlan := vlan, mtu := mtu }

/-- EXIT READ, SET READ and MAP READ answer their words, or ABSENT for a FREE record, and change nothing (R43, R47, R69,
R196). EXIT READ reads the effective state of the exit's port; while that read waits at the port table, the command's claim is
in progress at the Path Table (R36, R84). -/
def Obligations.TableReadsAnswer : Prop :=
  (∀ s ps id, bits (param ps 0) 31 16 = id →
    (s.works 0x25 ps → id ≤ 8191 → bits (param ps 1) 15 0 ≤ 4095 → s.pt.exit? id = none →
      exec .exitRead s = .next (s.answered .absent [])) ∧
    (s.works 0x33 ps → id ≤ 4095 → s.pt.set? id = none → exec .setRead s = .next (s.answered .absent [])) ∧
    (s.works 0x38 ps → id ≤ 4095 → (bits (param ps 0) 7 0 = 1 ∨ bits (param ps 0) 7 0 = 2) → s.pt.set? id = none →
      exec .mapRead s = .next (s.answered .absent []))) ∧
  (∀ s ps id e start, s.works 0x25 ps → bits (param ps 0) 31 16 = id → id ≤ 8191 → bits (param ps 1) 15 0 = start →
    start ≤ 4095 → s.pt.exit? id = some e →
    let ahead := e.users.filter fun x => decide (start ≤ x)
    let r := s.readsOf [e.port]
    portsRead 0x25 ps s.pt = [e.port] ∧
    (r.2 = [] → exec .exitRead s = .next (s.reading r)) ∧
    ∀ live more, r.2 = live :: more → exec .exitRead s = .next ((s.setPmon r.1).answered .ok
      ([pack8 (if e.enabled then 1 else 2) e.port (if live then 1 else 0) 0,
        e.addr.extractLsb' 16 32, pack16 (e.addr.extractLsb' 0 16).toNat (e.vlan.getD 0),
        wordOf ((if e.vlan.isSome then 1 else 0) * 2 ^ 24 + e.mtu), wordOf e.routeRefs, pack16 e.memberRefs e.pinRefs,
        pack8 (ahead.take 40).length (if 40 < ahead.length then 1 else 0) 0 0] ++ pairWords (ahead.take 40)))) ∧
  (∀ s ps id p, s.works 0x33 ps → bits (param ps 0) 31 16 = id → id ≤ 4095 → s.pt.set? id = some p →
    exec .setRead s = .next (s.answered .ok
      ([pack8 p.rejoin.code p.emptyVerdict.code 0 p.members.length,
        wordOf ((if p.backup.isSome then 1 else 0) * 2 ^ 24 + p.backup.getD 0), wordOf p.routeRefs,
        pack16 p.backupRefs p.pinRefs] ++
        p.members.map fun m => wordOf (m.exit * 2 ^ 16 + m.weight * 2 ^ 12 + (if m.up then 1 else 2) * 2 ^ 8
          + p.map.count (some m.exit))))) ∧
  ∀ s ps id p, s.works 0x38 ps → bits (param ps 0) 31 16 = id → id ≤ 4095 → s.pt.set? id = some p →
    ∀ start, (bits (param ps 0) 7 0 = 1 ∧ start = 0 ∨ bits (param ps 0) 7 0 = 2 ∧ start = 32) →
    exec .mapRead s = .next (s.answered .ok
      (pack8 p.members.length (p.members.countP (·.up)) 0 0 ::
        pairWords (((p.map.drop start).take 32).map fun b => b.getD 0xFFFF)))

/-! ## Path sets and maps -/

/-- SET CREATE: the order of its refusals, and the record, the references and the user lists it makes (R44). Each new member is
recorded by the effective state of its exit's port, the reads one after another in the order of the entries; while one of them
waits at the port table, the command's claim is in progress at the Path Table (R36, R84). That the row makes all the reads it
can in one step is the model's (DESIGN CHOICE, notes/assumptions/24.md). -/
def Obligations.SetCreateMakesActive : Prop :=
  ∀ s ps c, s.works 0x30 ps → setCreateFields ps = some c →
    let full := 16 < c.entries.length
    let twice := ¬ (c.entries.map (·.1)).Nodup
    let self := c.backup = some c.id
    let missing := (∃ b, c.backup = some b ∧ s.pt.set? b = none) ∨ ∃ x ∈ c.entries, s.pt.exit? x.1 = none
    (full → exec .setCreate s = .next (s.answered .setFull [])) ∧
    (¬ full → twice → exec .setCreate s = .next (s.answered .dupMember [])) ∧
    (¬ full → ¬ twice → self → exec .setCreate s = .next (s.answered .selfRef [])) ∧
    (¬ full → ¬ twice → ¬ self → (s.pt.set? c.id).isSome = true →
      exec .setCreate s = .next (s.answered .exists [])) ∧
    (¬ full → ¬ twice → ¬ self → s.pt.set? c.id = none → missing →
      exec .setCreate s = .next (s.answered .noTarget [])) ∧
    (¬ full → ¬ twice → ¬ self → s.pt.set? c.id = none → ¬ missing →
      let ports := portsRead 0x30 ps s.pt
      let r := s.readsOf ports
      ports.length = c.entries.length ∧
      (∀ (i : Nat) x e, c.entries[i]? = some x → s.pt.exit? x.1 = some e → ports[i]? = some e.port) ∧
      (r.2.length < c.entries.length → exec .setCreate s = .next (s.reading r)) ∧
      (c.entries.length ≤ r.2.length →
      ∃ ms pt', ms.map (fun m : Member => (m.exit, m.weight)) = c.entries ∧
        (∀ (i : Nat) m live e, ms[i]? = some m → r.2[i]? = some live → s.pt.exit? m.exit = some e →
          m.up = (e.enabled && live)) ∧
        pt'.set? c.id = some ⟨c.id, ms, fillMap ms, c.rejoin, c.emptyVerdict, c.backup, 0, 0, 0⟩ ∧
        (∀ j, j ≠ c.id → pt'.set? j = (s.pt.set? j).map fun p =>
          if c.backup = some j then { p with backupRefs := p.backupRefs + 1 } else p) ∧
        (∀ j, pt'.exit? j = (s.pt.exit? j).map fun e =>
          if j ∈ c.entries.map (·.1) then
            { e with memberRefs := e.memberRefs + 1, users := insertBy (fun y => y) c.id e.users } else e) ∧
        pt'.waiting = s.pt.waiting ∧ pt'.taken = s.pt.taken ∧
        exec .setCreate s = .next (((s.setPmon r.1).setPt pt').answered .ok [])))

/-- SET CHANGE: the fields it writes, and the take on a new backup before the release of the old (R45). That a field whose
selection says keep is not checked, so that `setChangeFields` reads such words, is the model's reading (DEDUCED,
notes/assumptions/7.md). -/
def Obligations.SetChangeWrites : Prop :=
  ∀ s ps id c, s.works 0x31 ps → setChangeFields ps = some (id, c) →
    (c.backup = some (some id) → exec .setChange s = .next (s.answered .selfRef [])) ∧
    (c.backup ≠ some (some id) →
      (s.pt.set? id = none → exec .setChange s = .next (s.answered .absent [])) ∧
      ∀ p, s.pt.set? id = some p →
        (∀ b, c.backup = some (some b) → s.pt.set? b = none → exec .setChange s = .next (s.answered .noTarget [])) ∧
        ((∀ b, c.backup = some (some b) → (s.pt.set? b).isSome = true) →
          ∃ pt', pt'.exits = s.pt.exits ∧ pt'.waiting = s.pt.waiting ∧ pt'.taken = s.pt.taken ∧
            (∀ j, pt'.set? j = (s.pt.set? j).map fun q =>
              let refs := q.backupRefs + (if c.backup = some (some j) then 1 else 0)
                - (if c.backup.isSome = true ∧ p.backup = some j then 1 else 0)
              if j = id then
                { q with backupRefs := refs, rejoin := c.rejoin.getD q.rejoin,
                         emptyVerdict := c.emptyVerdict.getD q.emptyVerdict, backup := c.backup.getD q.backup }
              else { q with backupRefs := refs }) ∧
            exec .setChange s = .next ((s.setPt pt').answered .ok [])))

/-- SET DELETE (R46): of a set whose members name different exits (R30). -/
def Obligations.SetDeleteReleases : Prop :=
  ∀ s ps id, s.works 0x32 ps → bits (param ps 0) 31 16 = id → id ≤ 4095 →
    (s.pt.set? id = none → exec .setDelete s = .next (s.answered .absent [])) ∧
    ∀ p, s.pt.set? id = some p →
      (0 < p.routeRefs + p.backupRefs + p.pinRefs → exec .setDelete s = .next (s.answered .inUse [])) ∧
      (p.routeRefs + p.backupRefs + p.pinRefs = 0 → (p.members.map (·.exit)).Nodup →
        ∃ pt', pt'.set? id = none ∧ pt'.waiting = s.pt.waiting ∧ pt'.taken = s.pt.taken ∧
          (∀ j, j ≠ id → pt'.set? j = (s.pt.set? j).map fun q =>
            if p.backup = some j then { q with backupRefs := q.backupRefs - 1 } else q) ∧
          (∀ j, pt'.exit? j = (s.pt.exit? j).map fun e =>
            if j ∈ p.members.map (·.exit) then
              { e with memberRefs := e.memberRefs - 1, users := e.users.filter (fun x => x != id) } else e) ∧
          exec .setDelete s = .next ((s.setPt pt').answered .ok []))

/-- MEMBER ADD: the order of its refusals, and the member it appends, a gain when it is recorded UP (R48, R61). MEMBER
REMOVE: a loss when the member is recorded UP, then the member, its reference and its place in the user list go (R49,
R60). MEMBER ADD reads the effective state of the exit's port; while that read waits at the port table, the command's claim is
in progress at the Path Table (R36, R84). -/
def Obligations.MembersJoinAndLeave : Prop :=
  (∀ s ps id x k, s.works 0x34 ps → bits (param ps 0) 31 16 = id → id ≤ 4095 → bits (param ps 1) 31 16 = x →
    x ≤ 8191 → bits (param ps 1) 7 0 = k → 1 ≤ k → k ≤ 15 →
    (s.pt.set? id = none → exec .memberAdd s = .next (s.answered .absent [])) ∧
    ∀ p, s.pt.set? id = some p →
      (s.pt.exit? x = none → exec .memberAdd s = .next (s.answered .noTarget [])) ∧
      ∀ e, s.pt.exit? x = some e →
        (x ∈ p.members.map (·.exit) → exec .memberAdd s = .next (s.answered .dupMember [])) ∧
        (x ∉ p.members.map (·.exit) → 16 ≤ p.members.length → exec .memberAdd s = .next (s.answered .setFull [])) ∧
        (x ∉ p.members.map (·.exit) → p.members.length < 16 →
          let r := s.readsOf [e.port]
          portsRead 0x34 ps s.pt = [e.port] ∧
          (r.2 = [] → exec .memberAdd s = .next (s.reading r)) ∧
          ∀ live more, r.2 = live :: more →
          let up := e.enabled && live
          let ms := p.members ++ [⟨x, k, up⟩]
          ∃ pt', pt'.waiting = s.pt.waiting ∧ pt'.taken = s.pt.taken ∧
            (∀ j, pt'.exit? j = (s.pt.exit? j).map fun e =>
              if j = x then { e with memberRefs := e.memberRefs + 1, users := insertBy (fun y => y) id e.users } else e) ∧
            (∀ j, pt'.set? j = (s.pt.set? j).map fun q =>
              if j = id then
                { q with members := ms
                         map := if up = true ∧ ((∀ b ∈ p.map, b = none) ∨ p.rejoin = .eager) then fillMap ms
                                else p.map }
              else q) ∧
            exec .memberAdd s = .next (((s.setPmon r.1).setPt pt').answered .ok [if up then 0x01000000#32 else 0x02000000#32]))) ∧
  (∀ s ps id x, s.works 0x35 ps → bits (param ps 0) 31 16 = id → id ≤ 4095 → bits (param ps 1) 31 16 = x → x ≤ 8191 →
    (s.pt.set? id = none → exec .memberRemove s = .next (s.answered .absent [])) ∧
    ∀ p, s.pt.set? id = some p →
      (x ∉ p.members.map (·.exit) → exec .memberRemove s = .next (s.answered .absent [])) ∧
      ∀ m, p.member? x = some m → ∃ pt', pt'.waiting = s.pt.waiting ∧ pt'.taken = s.pt.taken ∧
        (∀ j, pt'.exit? j = (s.pt.exit? j).map fun e =>
          if j = x then { e with memberRefs := e.memberRefs - 1, users := e.users.filter (fun y => y != id) } else e) ∧
        (∀ j, pt'.set? j = (s.pt.set? j).map fun q =>
          if j = id then
            { q with members := p.members.filter (fun y => y.exit != x)
                     map := if m.up then (p.lose x).map else p.map }
          else q) ∧
        exec .memberRemove s = .next ((s.setPt pt').answered .ok []))

/-- MEMBER WEIGHT writes the weight in place, which is a gain event; SET REFILL runs the fill rule and answers the
number of buckets it changed; both answer ABSENT for a FREE set (R50, R58, R61, R67). -/
def Obligations.WeightAndRefill : Prop :=
  (∀ s ps id x k, s.works 0x36 ps → bits (param ps 0) 31 16 = id → id ≤ 4095 → bits (param ps 1) 31 16 = x →
    x ≤ 8191 → bits (param ps 1) 7 0 = k → 1 ≤ k → k ≤ 15 →
    (s.pt.set? id = none → exec .memberWeight s = .next (s.answered .absent [])) ∧
    ∀ p, s.pt.set? id = some p →
      (x ∉ p.members.map (·.exit) → exec .memberWeight s = .next (s.answered .absent [])) ∧
      ∀ m, p.member? x = some m →
        (m.weight = k → exec .memberWeight s = .next (s.answered .ok [])) ∧
        (m.weight ≠ k →
          let ms := p.members.map fun y => if y.exit = x then { y with weight := k } else y
          ∃ pt', pt'.exits = s.pt.exits ∧ pt'.waiting = s.pt.waiting ∧ pt'.taken = s.pt.taken ∧
            (∀ j, pt'.set? j = (s.pt.set? j).map fun q =>
              if j = id then
                { q with members := ms
                         map := if (∀ b ∈ p.map, b = none) ∨ p.rejoin = .eager then fillMap ms else p.map }
              else q) ∧
            exec .memberWeight s = .next ((s.setPt pt').answered .ok []))) ∧
  (∀ s ps id, s.works 0x37 ps → bits (param ps 0) 31 16 = id → id ≤ 4095 → s.pt.set? id = none →
    exec .setRefill s = .next (s.answered .absent [])) ∧
  ∀ s ps id p, s.works 0x37 ps → bits (param ps 0) 31 16 = id → id ≤ 4095 → s.pt.set? id = some p →
    p.map.length = 64 → ∃ pt', pt'.exits = s.pt.exits ∧ pt'.waiting = s.pt.waiting ∧ pt'.taken = s.pt.taken ∧
      (∀ j, pt'.set? j = (s.pt.set? j).map fun q => if j = id then { q with map := fillMap p.members } else q) ∧
      exec .setRefill s = .next ((s.setPt pt').answered .ok
        [BitVec.ofNat 32 ((List.range 64).countP fun b => p.map[b]? != (fillMap p.members)[b]?)])

/-- The fill rule lays out the buckets in passes from bucket 0: each pass gives the members recorded UP, in list order,
as many consecutive buckets as their weights, and the last pass is cut at bucket 63 (R57). So a member has its weight for
each whole pass, and in the cut pass what the members before it leave of its weight; with no member recorded UP every
bucket is EMPTY (R57, R58). -/
def Obligations.FillRuleCounts : Prop :=
  ∀ ms : List Member,
    let up := ms.filter (·.up)
    let w := (up.map (·.weight)).sum
    (fillMap ms).length = 64 ∧
    (w = 0 → ∀ b ∈ fillMap ms, b = none) ∧
    (0 < w → ∀ before m after, up = before ++ m :: after → ∀ pass i, i < m.weight →
      let b := pass * w + (before.map (·.weight)).sum + i
      b < 64 → (fillMap ms)[b]? = some (some m.exit)) ∧
    (0 < w → none ∉ fillMap ms) ∧
    (0 < w → (ms.map (·.exit)).Nodup → ∀ before m after, up = before ++ m :: after →
      bucketCount (fillMap ms) m.exit
        = m.weight * (64 / w) + min m.weight (64 % w - (before.map (·.weight)).sum))

/-- At a loss the buckets of the others stay, and each of the lost member's buckets, in ascending order, goes to the
UP member that holds the fewest at that moment, the earliest in list order on a tie (R59). -/
def Obligations.LossRuleReassigns : Prop :=
  ∀ (p : PathSet) lost, (p.members.map (·.exit)).Nodup →
    let others := (p.members.filter fun m => m.up && m.exit != lost).map (·.exit)
    let new := (p.lose lost).map
    new.length = p.map.length ∧
    (∀ b : Nat, p.map[b]? ≠ some (some lost) → new[b]? = p.map[b]?) ∧
    ∀ b : Nat, p.map[b]? = some (some lost) →
      (others = [] → new[b]? = some none) ∧
      (others ≠ [] → ∃ e ∈ others, new[b]? = some (some e)) ∧
      let held := fun e => (new.take b ++ p.map.drop b).count (some e)
      ∀ earlier e later, others = earlier ++ e :: later → new[b]? = some (some e) →
        (∀ x ∈ earlier, held e < held x) ∧ ∀ x ∈ later, held e ≤ held x

/-- A member update compares the recorded state with the derived one: no change, a loss, or a gain; a gain runs the fill
rule when every bucket was EMPTY or under EAGER (R53, R61). -/
def Obligations.MemberUpdateCases : Prop :=
  ∀ (p : PathSet) x m up, p.member? x = some m →
    (m.up = up → p.memberUpdate x up = p) ∧
    let marked := p.members.map fun y => if y.exit = x then { y with up := up } else y
    (m.up = true → up = false →
      p.memberUpdate x up = { p with members := marked, map := (({ p with members := marked } : PathSet).lose x).map }) ∧
    (m.up = false → up = true →
      p.memberUpdate x up = { p with members := marked
                                     map := if (∀ b ∈ p.map, b = none) ∨ p.rejoin = .eager then fillMap marked
                                            else p.map })

/-! ## Ports -/

/-- A claim that changes a port's record by `f` recomputes the effective state; at an effective change the pass starts
afresh and a PORT posting is handed over (R71, R79). A visit claim of the pass that waits gives way to a new one; one that is
TAKEN goes on, and what it returns is discarded (R82). Of a timer that the claim leaves STOPPED no expiry waits any more (R75,
R76). -/
def Obligations.EffectiveChange : Prop :=
  ∀ (s : State) p f, (f (s.port p)).live = (s.port p).live →
    let x := f (s.port p)
    let live : Bool := match x.forced with | .live => true | .dead => false | .none => decide (x.phase = .live)
    let written := fun y : Port =>
      if x.timer = none then (s.pmon.setPort p y).withdraw (.expiry p) else s.pmon.setPort p y
    (live = (s.port p).live → s.portClaim p f = s.setPmon (written x)) ∧
    (live ≠ (s.port p).live → ∀ pt',
      ((∃ v, s.pt.taken = some (.visit v) ∧ v.port = p ∧
          pt' = { s.pt with taken := some (.visit { v with stale := true }) }) ∨
        ((∀ v, s.pt.taken = some (.visit v) → v.port ≠ p) ∧ pt' = (s.pt.withdraw (.visit p)).present (.visit p))) →
      s.portClaim p f =
        ((s.setPmon (written { x with live := live, pass := .running none })).setPt pt').post (.port p live))

/-- PORT FORCE writes the forced field and answers the port as it then stands (R77, R78). PORT READ reads the port and
the change count of its PORT record and changes nothing (R85, R197); its count of exits is the claim that the end of the
work phase makes, in between which others may be taken (R171; notes/assumptions/12.md, DESIGN CHOICE). The time left is
taken from the model's clock (notes/assumptions/4.md, DESIGN CHOICE). -/
def Obligations.PortForceAndRead : Prop :=
  (∀ s ps (p : Fin 64) v, s.works 0x40 ps → bits (param ps 0) 31 24 = p.val → bits (param ps 0) 23 16 = v.code →
    let live : Bool := match v with | .live => true | .dead => false | .none => decide ((s.port p).phase = .live)
    ∃ w, bits w 31 24 = v.code ∧ bits w 23 16 = (s.port p).phase.code ∧ bits w 15 8 = (if live then 1 else 0) ∧
      bits w 7 0 = 0 ∧
      exec .portForce s = .next ((s.portClaim p fun x => { x with forced := v }).answered .ok [w])) ∧
  (∀ s ps (p : Fin 64), s.works 0x41 ps → bits (param ps 0) 31 24 = p.val →
    let x := s.port p
    exec .portRead s = .next (s.withProgress (.counting p
      [pack8 x.reported.code x.forced.code x.phase.code (if x.live then 1 else 0),
        wordOf (match x.timer with | none => 0 | some t => 2 ^ 24 + (t - s.pmon.now)),
        (match x.pass with | .idle => 0#32 | .running none => 0x01000000#32 | .running (some _) => 0x01010000#32),
        (match x.pass with | .running (some c) => pack16 c.1 c.2 | _ => 0#32)] (s.au.portCount p)))) ∧
  ∀ (au : AttentionUnit) p,
    ((∀ live c, .port p live c ∉ au.list) → au.portCount p = 0) ∧
    ∀ before live c after, au.list = before ++ .port p live c :: after → (∀ l k, .port p l k ∉ before) →
      au.portCount p = c

/-- REPORT_TAKEN: the report that arrived first, unless a claim presented before it waits at the port table (R84), moves
reported, phase and timer as R73's table says, and credits its lane in the session it arrived in (R72, R73, R99).
HOLD_DOWN_EXPIRY: the timer of a port stops and the phase moves from RECOVERING to LIVE (R75); the model's clock then stands
at the time of expiry or later, an expiry for which its time has come is presented, and another timer due earlier goes first
(notes/assumptions/4.md, DESIGN CHOICE). An expiry before which another claim waits at the port table waits (R84). -/
def Obligations.ReportsAndExpiries : Prop :=
  (∀ s, (∀ g rest r, s.pmon.waiting = g :: rest → .report r ∉ g) → exec .reportTaken s = .next s) ∧
  (∀ s r before after rest y, s.dev.phase = .running → s.portsHeld = false →
    s.pmon.waiting = (before ++ .report r :: after) :: rest → (∀ q, .report q ∉ before) →
    let x := s.port r.port
    let h := s.pmon.holdDown
    ((r.state = .live ∧ (x.phase = .unknown ∨ x.phase = .dead) ∧ 0 < h ∧
        y = { x with reported := .live, phase := .recovering, timer := some (s.pmon.now + h) }) ∨
      (r.state = .live ∧ (x.phase = .unknown ∨ x.phase = .dead) ∧ h = 0 ∧
        y = { x with reported := .live, phase := .live }) ∨
      (r.state = .live ∧ (x.phase = .recovering ∨ x.phase = .live) ∧ y = { x with reported := .live }) ∨
      (r.state = .dead ∧ x.phase ≠ .recovering ∧ y = { x with reported := .dead, phase := .dead }) ∨
      (r.state = .dead ∧ x.phase = .recovering ∧ y = { x with reported := .dead, phase := .dead, timer := none })) →
    let t := (s.setPmon { s.pmon with
      waiting := if before ++ after = [] then rest else (before ++ after) :: rest }).portClaim r.port fun _ => y
    exec .reportTaken s = .next (if r.credit then
      t.updLane r.lane (fun l => ({ l with reportsPending := l.reportsPending - 1, owed := min (l.owed + 1) 32 } :
        Lane).startNext) else t)) ∧
  (∀ s p, (s.port p).timer = none → exec (.holdDownExpiry p) s = .next s) ∧
  (∀ s p t, s.dev.phase = .running → (s.port p).timer = some t →
    let m := s.pmon.advance t
    ((∃ q u, (s.port q).timer = some u ∧ s.pmon.now < u ∧ u < t) → exec (.holdDownExpiry p) s = .next s) ∧
    ((∀ q u, (s.port q).timer = some u → t ≤ u ∨ u ≤ s.pmon.now) →
      ((∀ g rest, m.waiting = g :: rest → .expiry p ∉ g) → exec (.holdDownExpiry p) s = .next (s.setPmon m)) ∧
      ∀ g rest, m.waiting = g :: rest → .expiry p ∈ g → (s.port p).phase = .recovering →
        exec (.holdDownExpiry p) s = .next ((s.setPmon m).portClaim p fun x =>
          { x with timer := none, phase := .live }))) ∧
  ∀ (m : PortMonitor) t, ∃ due : List (Fin 64),
    (∀ p, p ∈ due ↔ (∃ u, m.ports[p].timer = some u ∧ u ≤ t) ∧ .expiry p ∉ m.waiting.flatten) ∧
    due.Pairwise (· < ·) ∧
    m.advance t = { m with
      now := max m.now t
      waiting := if due = [] then m.waiting else m.waiting ++ [due.map .expiry] }

/-- VISIT_CLAIM, of a visit claim that is TAKEN or is taken and finished at once: the member at the next place is updated by
the effective state of the port and the next claim presented, or the pass is IDLE at its end; of a TAKEN claim whose pass an
effective change has restarted since, what it returns is discarded (R81, R82, R83). The read of the effective state is a claim
of its own on the port table; while it waits there, the visit claim is TAKEN (R36, R84). The next place is the least place of
its port after the cursor, exits ascending and sets ascending within an exit; there is none at the end (R81). A claim that the
Path Table does not take waits (R36). That a TAKEN claim reads the effective state when it finishes is the model's reading of
R81 beside R83's last row (DEDUCED, notes/assumptions/6.md). -/
def Obligations.FailoverPassVisits : Prop :=
  (∀ s p v, s.pt.taken = some (.visit v) → v.port ≠ p → exec (.visitClaim p) s = .next s) ∧
  (∀ s p, (∀ v, s.pt.taken ≠ some (.visit v)) → (s.port p).pass = .idle ∨ s.ptTakes (.visit p) = false →
    exec (.visitClaim p) s = .next s) ∧
  (∀ s p cursor stale, s.dev.phase = .running → s.tablesHeld = false →
    (s.pt.taken = some (.visit ⟨p, cursor, stale⟩) ∨
      (s.pt.taken = none ∧ (s.port p).pass = .running cursor ∧ s.ptTakes (.visit p) = true ∧ stale = false)) →
    let pt := { s.pt.withdraw (.visit p) with taken := none }
    let returns := fun (t : State) pass =>
      if stale = true then t else t.setPmon (t.pmon.setPort p { s.port p with pass := pass })
    (pt.nextPlace p cursor = none → exec (.visitClaim p) s =
      .next (returns (s.setPt (if stale = true then pt.present (.visit p) else pt)) .idle)) ∧
    ∀ e sid x, pt.nextPlace p cursor = some (e, sid) → pt.exit? e = some x →
      (s.pmon.admits .read = false → exec (.visitClaim p) s =
        .next ((s.setPt { pt with taken := some (.visit ⟨p, cursor, stale⟩) }).setPmon (s.pmon.offer .read))) ∧
      (s.pmon.admits .read = true → exec (.visitClaim p) s =
        .next (returns ((s.setPmon (s.pmon.withdraw .read)).setPt
          ((pt.updSet sid fun q => q.memberUpdate e (x.enabled && (s.port p).live)).present (.visit p)))
          (.running (some (e, sid)))))) ∧
  (∀ (pt : PathTable) p cursor, pt.exits.Pairwise (fun a b => a.id < b.id) →
    (∀ e ∈ pt.exits, e.users.Pairwise (· < ·)) →
    let ahead := fun c => pt.isPlace p c ∧ ∀ k, cursor = some k → placeBefore k c
    (pt.nextPlace p cursor = none → ∀ c, ¬ ahead c) ∧
    ∀ c, pt.nextPlace p cursor = some c → ahead c ∧ ∀ d, ahead d → d = c ∨ placeBefore c d)

/-! ## Lanes -/

/-- LANE ENABLE, LANE DISABLE and LANE WEIGHT on a lane in each of its link states (R93, R108, R110). That LANE ENABLE
answers DOWN, the state after its claim, while a signal on the line has moved the lane on to ALIGNING in the same step is
the model's reading (DEDUCED, notes/assumptions/8.md). LANE READ answers
the lane as it stands, with the cause set and the change count of its LANE record, or an empty set and 0 when the list holds
none, then clears the counters if asked (R109, R197). -/
def Obligations.LaneCommandsAct : Prop :=
  (∀ s ps (n : Fin 4), bits (param ps 0) 31 24 = n.val →
    (s.works 0x50 ps →
      ((s.lane n).link = .disabled → exec .laneEnable s = .next (((s.updLane n fun l => { l with link :=
        if l.signal = true ∧ s.dev.refclk = true then .aligning else .down })).answered .ok [0x01000000#32])) ∧
      ((s.lane n).link ≠ .disabled → ∃ w, bits w 31 24 = (s.lane n).link.code ∧ bits w 23 0 = 0 ∧
        exec .laneEnable s = .next (s.answered .ok [w]))) ∧
    (s.works 0x51 ps →
      ((s.lane n).link ≠ .up → exec .laneDisable s =
        .next ((s.updLane n fun l => { l with link := .disabled }).answered .ok [])) ∧
      ((s.lane n).link = .up → exec .laneDisable s = .next (((s.updLane n fun l =>
        { l with link := .disabled, queue := [], held := 0, owed := 0, reportsPending := 0, sending := none }).setPmon
        (s.pmon.orphan n)).answered .ok []))) ∧
    (s.works 0x53 ps → 1 ≤ bits (param ps 0) 23 16 → bits (param ps 0) 23 16 ≤ 8 →
      exec .laneWeight s = .next ((s.updLane n fun l => { l with weight := bits (param ps 0) 23 16 }).answered .ok [])) ∧
    (s.works 0x53 ps → (bits (param ps 0) 23 16 = 0 ∨ 8 < bits (param ps 0) 23 16) →
      exec .laneWeight s = .next (s.answered .badArg []))) ∧
  (∀ s ps (n : Fin 4), s.works 0x52 ps → bits (param ps 0) 31 24 = n.val →
    let l := s.lane n
    let ws := [pack8 l.link.code l.weight (if s.su.current = n then 1 else 0)
        (if s.su.current = n then s.su.allowance else 0),
      pack8 l.queue.length (l.queue.countP fun e => decide (e.status = .waiting)) l.held l.owed,
      pack8 l.reportsPending (s.au.laneRecord n).1.code 0 (s.au.laneRecord n).2,
      wordOf l.requestsTaken, wordOf l.resultsSent, pack16 l.overruns l.checkErrors, pack16 l.malformed 0]
    (bits (param ps 0) 16 16 = 0 → exec .laneRead s = .next (s.answered .ok ws)) ∧
    (bits (param ps 0) 16 16 = 1 → exec .laneRead s = .next ((s.updLane n fun l =>
      { l with requestsTaken := 0, resultsSent := 0, overruns := 0, checkErrors := 0, malformed := 0 }).answered .ok ws))) ∧
  ∀ (au : AttentionUnit) n,
    ((∀ cs c, .lane n cs c ∉ au.list) → au.laneRecord n = (⟨false, false, false⟩, 0)) ∧
    ∀ before cs c after, au.list = before ++ .lane n cs c :: after → (∀ x k, .lane n x k ∉ before) →
      au.laneRecord n = (cs, c)

/-- The link's events: signal detected in DOWN, alignment complete in ALIGNING, and the losses in ALIGNING and UP (R91, R92,
R93, R104); a lane without a reference clock stays in DOWN (R200). In the states that R91 does not list for it an event leaves
the link as it is, and of the lane only the input on its line moves: that the lane keeps its line's input in DISABLED and DOWN,
where R91 ignores the event, is the model's reading (DEDUCED, notes/assumptions/22.md). -/
def Obligations.LinkEvents : Prop :=
  ∀ s (n : Fin 4), s.dev.phase = .running →
    ((s.lane n).link = .down → s.dev.refclk = true → exec (.signalDetected n) s =
      .next (s.updLane n fun l => { l with signal := true, link := .aligning })) ∧
    ((s.lane n).link ≠ .down ∨ s.dev.refclk = false → exec (.signalDetected n) s =
      .next (s.updLane n fun l => { l with signal := true })) ∧
    ((s.lane n).link = .aligning → (s.lane n).sending = none → exec (.alignmentComplete n) s =
      .next (s.updLane n fun l => { l with link := .up, held := 0, owed := 0, sending := some (.credit 32) })) ∧
    ((s.lane n).link ≠ .aligning → exec (.alignmentComplete n) s = .next s) ∧
    ((s.lane n).link = .aligning → exec (.signalLost n .signal) s =
      .next (s.updLane n fun l => { l with signal := false, link := .down })) ∧
    ((s.lane n).link = .disabled ∨ (s.lane n).link = .down → exec (.signalLost n .signal) s =
      .next (s.updLane n fun l => { l with signal := false })) ∧
    ((s.lane n).link ≠ .up → exec (.signalLost n .alignment) s = .next s) ∧
    ((s.lane n).link = .up → exec (.signalLost n .signal) s =
      .next (((s.updLane n fun l =>
        { l with signal := false, link := .down, queue := [], held := 0, owed := 0,
                 reportsPending := 0, sending := none }).setPmon (s.pmon.orphan n)).post (.lane n .linkLost))) ∧
    ((s.lane n).link = .up → exec (.signalLost n .alignment) s =
      .next (((s.updLane n fun l =>
        { l with link := if (s.lane n).signal = true ∧ s.dev.refclk = true then .aligning else .down,
                 queue := [], held := 0, owed := 0,
                 reportsPending := 0, sending := none }).setPmon (s.pmon.orphan n)).post (.lane n .linkLost)))

/-- A LOOKUP on a lane in UP takes a credit and is queued WAITING, malformed or not, or is an overrun when 32 entries
stand in the queue (R94, R96, R97, R98). -/
def Obligations.LookupsAreQueued : Prop :=
  ∀ s (n : Fin 4) c tag ask, s.dev.phase = .running → (s.lane n).link = .up →
    ((∃ d mark hash key, c = .lookupN n tag d mark hash key ∧ ask = some ⟨d, mark, hash, .narrow key⟩) ∨
      (∃ d mark hash key, c = .lookupW n tag d mark hash key ∧ ask = some ⟨d, mark, hash, .wide key⟩) ∨
      ∃ ws, c = .malformedMessage n ws ∧ messageKind ws = 1 ∧ tag = messageTag ws ∧ ask = none) →
    let counted := fun l : Lane => if ask = none then { l with malformed := min (l.malformed + 1) 65535 } else l
    ((s.lane n).queue.length < 32 → exec c s = .next (s.updLane n fun l =>
      { counted l with held := l.held - 1, queue := l.queue ++ [⟨tag, ask, .waiting⟩],
                       requestsTaken := min (l.requestsTaken + 1) 4294967295 })) ∧
    (32 ≤ (s.lane n).queue.length → exec c s = .next ((s.updLane n fun l =>
      { counted l with held := l.held - 1, overruns := min (l.overruns + 1) 65535 }).post (.lane n .overrun)))

/-- A PORT message on a lane in UP takes a credit and is handed to PMON, or is an overrun when 32 reports are pending. A
message that fails its check, or is malformed and no LOOKUP, is counted and its credit is owed; the check failure posts
CHECK (R94, R95, R96, R98, R99, R100). On a lane that is not UP, what arrives is no message: it is neither checked nor
counted, and it takes no credit (R91). -/
def Obligations.ReportsAndBadMessages : Prop :=
  (∀ s (n : Fin 4) p st, s.dev.phase = .running → s.portsHeld = false → (s.lane n).link = .up →
    ((s.lane n).reportsPending < 32 → exec (.port n p st) s = .next ((s.updLane n fun l =>
      { l with held := l.held - 1, reportsPending := l.reportsPending + 1 }).setPmon
      { s.pmon with waiting := s.pmon.waiting ++ [[.report ⟨n, p, st, true⟩]] })) ∧
    (32 ≤ (s.lane n).reportsPending → exec (.port n p st) s = .next ((s.updLane n fun l =>
      { l with held := l.held - 1, overruns := min (l.overruns + 1) 65535 }).post (.lane n .overrun)))) ∧
  (∀ c s n, arrivalLane c = some n → (s.dev.phase ≠ .running ∨ (s.lane n).link ≠ .up) → exec c s = .next s) ∧
  (∀ s (n : Fin 4) ws, s.dev.phase = .running → (s.lane n).link = .up →
    exec (.checkFailure n ws) s = .next ((s.updLane n fun l =>
      ({ l with held := l.held - 1, checkErrors := min (l.checkErrors + 1) 65535, owed := min (l.owed + 1) 32 } :
        Lane).startNext).post (.lane n .check)) ∧
    (messageKind ws ≠ 1 → exec (.malformedMessage n ws) s = .next (s.updLane n fun l =>
      ({ l with held := l.held - 1, malformed := min (l.malformed + 1) 65535, owed := min (l.owed + 1) 32 } :
        Lane).startNext)))

/-- The end of a CREDIT send returns its count, the end of a RESULT send retires the oldest entry; the next due message
then starts: a CREDIT of what is owed, else the RESULT of a DONE oldest entry, else none (R100). -/
def Obligations.SendsEnd : Prop :=
  (∀ s (n : Fin 4) c, s.dev.phase = .running → (s.lane n).link = .up → (s.lane n).sending = some (.credit c) →
    exec (.creditSent n) s = .next (s.updLane n fun l =>
      ({ l with sending := none, held := min (l.held + c) 32 } : Lane).startNext)) ∧
  (∀ s (n : Fin 4), s.dev.phase = .running → (s.lane n).link = .up → (s.lane n).sending = some .result →
    exec (.resultSent n) s = .next (s.updLane n fun l =>
      ({ l with sending := none, queue := l.queue.tail, resultsSent := min (l.resultsSent + 1) 4294967295,
                held := min (l.held + 1) 32 } : Lane).startNext)) ∧
  ∀ l : Lane,
    (l.link = .up → l.sending = none → 0 < l.owed →
      l.startNext = { l with sending := some (.credit l.owed), owed := 0 }) ∧
    (l.link = .up → l.sending = none → l.owed = 0 → (∃ tag ask r rest, l.queue = ⟨tag, ask, .done r⟩ :: rest) →
      l.startNext = { l with sending := some .result }) ∧
    ((l.link ≠ .up ∨ l.sending ≠ none ∨
        (l.owed = 0 ∧ ∀ e rest, l.queue = e :: rest → ∀ r, e.status ≠ .done r)) → l.startNext = l)

/-! ## The search -/

/-- PROBE is presented; the grant goes to a PROBE first, else by current lane, allowance and cyclic order to the oldest
WAITING entry, which is searched, or answered BADREQ at once when it is malformed (R105, R106, R114, R115, R125). -/
def Obligations.GrantChooses : Prop :=
  (∀ s ps a, s.works 0x60 ps → probeFields ps = some a →
    exec .probe s = .next ((s.setSu { s.su with probe := some a }).withProgress .probing)) ∧
  ∀ s : State, s.dev.phase = .running → s.restarting = false → s.su.lookup = none →
    let eligible := fun n => (s.lane n).link = .up ∧ ∃ e ∈ (s.lane n).queue, e.status = .waiting
    (∀ a, s.su.probe = some a →
      exec .grant s = .next (s.setSu { s.su with lookup := some ⟨.probe, none, a, .matching⟩, probe := none })) ∧
    (s.su.probe = none → (∀ n, ¬ eligible n) → exec .grant s = .next s) ∧
    (s.su.probe = none → ∀ n allowance before e after,
      ((n = s.su.current ∧ 0 < s.su.allowance ∧ allowance = s.su.allowance - 1) ∨
        (¬ (eligible s.su.current ∧ 0 < s.su.allowance) ∧ allowance = (s.lane n).weight - 1 ∧
          ∃ k, k < 4 ∧ n.val = (s.su.current.val + 1 + k) % 4 ∧
            ∀ j m, j < k → m.val = (s.su.current.val + 1 + j) % 4 → ¬ eligible m)) →
      (s.lane n).link = .up → (s.lane n).queue = before ++ e :: after → e.status = .waiting →
      (∀ x ∈ before, x.status ≠ .waiting) → (∀ x ∈ before ++ after, x.status ≠ .granted) →
      (∀ a, e.ask = some a → exec .grant s =
        .next ((s.updLane n fun l => { l with queue := before ++ { e with status := .granted } :: after }).setSu
          { s.su with current := n, allowance := allowance, lookup := some ⟨.lane n, some e.tag, a, .matching⟩ })) ∧
      (e.ask = none → exec .grant s = .next ((s.updLane n fun l =>
        ({ l with queue := before ++ { e with status := .done ⟨.discard, .badReq, false, none, none⟩ } :: after } :
          Lane).startNext).setSu { s.su with current := n, allowance := allowance, lookup := none })))

/-- LOOKUP_CLAIM: a step claim in progress, a command claim that waits or is in progress at the Route Store, or a step claim that 16 lookups
have passed, goes first; otherwise the domain is read, the longest match made and marked, and the lookup ends or goes on to
its resolution (R6, R16, R17, R116, R117). A lookup may pass a command whose claim is not presented yet, and the resolution
claim is presented with its own row (DESIGN CHOICE, notes/assumptions/13.md). -/
def Obligations.LookupClaimMatches : Prop :=
  ∀ s src tag a, s.dev.phase = .running → s.restarting = false → s.su.lookup = some ⟨src, tag, a, .matching⟩ →
    (s.rsFree = false → exec .lookupClaim s = .next s) ∧
    (s.commandAtRouteStore = true → exec .lookupClaim s = .next s) ∧
    (s.je.stepClaimWaits = true → 16 ≤ s.rs.fairness → exec .lookupClaim s = .next s) ∧
    (s.rsFree = true → s.commandAtRouteStore = false → (s.je.stepClaimWaits = true → s.rs.fairness < 16) →
      let s1 := if s.je.stepClaimWaits then s.setRs { s.rs with fairness := s.rs.fairness + 1 } else s
      let b := a.hash.toNat % 64
      let d := s.rs.domain a.domain
      (d.enabled = false →
        exec .lookupClaim s = .next (s1.handBack src b ⟨.discard, .noDomain, false, none, none⟩)) ∧
      (d.enabled = true → s.rs.longestMatch a.domain a.key = none →
        exec .lookupClaim s = .next (s1.handBack src b ⟨d.miss.verdict, .noRoute, false, none, none⟩)) ∧
      (d.enabled = true → ∀ r, s.rs.longestMatch a.domain a.key = some r →
        let s2 := if a.mark then s1.setRs (s1.rs.updRoute r.ident fun x =>
          { x with mark := true, hits := min (x.hits + 1) 4294967295 }) else s1
        (r.target = .discard → exec .lookupClaim s =
          .next (s2.handBack src b ⟨.discard, .route, false, some (r.ident.len, r.tag), none⟩)) ∧
        (r.target = .control → exec .lookupClaim s =
          .next (s2.handBack src b ⟨.control, .route, false, some (r.ident.len, r.tag), none⟩)) ∧
        (r.target ≠ .discard → r.target ≠ .control → exec .lookupClaim s =
          .next (s2.setSu { s.su with lookup := some ⟨src, tag, a, .resolving r.ident.len r.target r.tag d.miss⟩ }))))

/-- RESOLUTION_CLAIM: every outcome of a path set with its backup and of a direct exit, and the result each gives
(R65, R66, R118, R119, R120); a claim that the Path Table does not take is presented and waits (R36, R117; when it is
presented is the model's, DESIGN CHOICE, notes/assumptions/13.md). Of an ACTIVE direct exit the effective state of its port is
read, a claim of its own on the port table; while that waits, the resolution claim is TAKEN, and its row finishes it (R84). -/
def Obligations.ResolutionClaimResolves : Prop :=
  ∀ s src tag a len target rtag miss r, s.dev.phase = .running → s.restarting = false →
    s.su.lookup = some ⟨src, tag, a, .resolving len target rtag miss⟩ →
    let reads := ∃ i e, target = .exit i ∧ s.pt.exit? i = some e
    let taken := s.pt.taken = some .resolution ∨ s.ptAdmits .resolution = true
    let u := s.setPt { s.pt.withdraw .resolution with taken := none }
    (¬ taken → exec .resolutionClaim s = .next (s.setPt (s.pt.offer .resolution))) ∧
    (taken → reads → s.pmon.admits .read = false → exec .resolutionClaim s =
      .next ((s.setPt { s.pt.withdraw .resolution with taken := some .resolution }).setPmon (s.pmon.offer .read))) ∧
    (taken → (reads → s.pmon.admits .read = true) →
    let b := a.hash.toNat % 64
    let drop := fun v reason => (⟨v, reason, false, some (len, rtag), none⟩ : Result)
    let forward := fun via (e : Exit) =>
      (⟨.forward, .route, via, some (len, rtag), some ⟨e.id, e.port, e.addr, e.vlan, e.mtu⟩⟩ : Result)
    let serves := fun (p : PathSet) e => ∃ x, p.map[b]? = some (some x) ∧ s.pt.exit? x = some e
    let empty := fun p : PathSet => p.map[b]? = some none
    ((∃ i, target = .pathSet i ∧ s.pt.set? i = none ∧ r = drop miss.verdict .stale) ∨
      (∃ i p e, target = .pathSet i ∧ s.pt.set? i = some p ∧ serves p e ∧ r = forward false e) ∨
      (∃ i p j q e, target = .pathSet i ∧ s.pt.set? i = some p ∧ empty p ∧ p.backup = some j ∧
        s.pt.set? j = some q ∧ serves q e ∧ r = forward true e) ∨
      (∃ i p, target = .pathSet i ∧ s.pt.set? i = some p ∧ empty p ∧
        (p.backup = none ∨ ∃ j q, p.backup = some j ∧ s.pt.set? j = some q ∧ empty q) ∧
        r = drop p.emptyVerdict.verdict .noPath) ∨
      (∃ i, target = .exit i ∧ s.pt.exit? i = none ∧ r = drop miss.verdict .stale) ∨
      (∃ i e, target = .exit i ∧ s.pt.exit? i = some e ∧ (e.enabled = false ∨ (s.port e.port).live = false) ∧
        r = drop miss.verdict .noPath) ∨
      (∃ i e, target = .exit i ∧ s.pt.exit? i = some e ∧ e.enabled = true ∧ (s.port e.port).live = true ∧
        r = forward false e)) →
    (reads → exec .resolutionClaim s = .next ((u.setPmon (s.pmon.withdraw .read)).handBack src b r)) ∧
    (¬ reads → exec .resolutionClaim s = .next (u.handBack src b r)))

/-- A result is handed to the GRANTED entry of its lane, which sends it when it is due, or is nowhere when the entry has
gone; a PROBE's is answered. The RESULT's first word and the PROBE answer's have R191's fields, and the four words after
it carry the route tag, the exit's ID, station address, MTU, port and VLAN, absent fields as 0 (R122, R123, R126, R191,
R197). -/
def Obligations.ResultIsHandedBack : Prop :=
  (∀ (s : State) n b r before e after, (s.lane n).queue = before ++ e :: after → e.status = .granted →
    (∀ x ∈ before ++ after, x.status ≠ .granted) →
    s.handBack (.lane n) b r = (s.setSu { s.su with lookup := none }).updLane n fun l =>
      ({ l with queue := before ++ { e with status := .done r } :: after } : Lane).startNext) ∧
  (∀ (s : State) n b r, (∀ x ∈ (s.lane n).queue, x.status ≠ .granted) →
    s.handBack (.lane n) b r = (s.setSu { s.su with lookup := none }).updLane n Lane.startNext) ∧
  (∀ (s : State) ws b r, s.cu = .busy ws .probing →
    s.handBack .probe b r = (s.setSu { s.su with lookup := none }).setCu
      (.busy ws (.answered ⟨.ok, r.word0 0 b :: r.exitWords⟩))) ∧
  (∀ r : Result, r.exitWords =
    let tag := match r.matched with | none => 0 | some m => m.2.toNat
    match r.exit with
    | none => [wordOf (tag * 2 ^ 16), 0#32, 0#32, 0#32]
    | some x => [wordOf (tag * 2 ^ 16 + x.id), x.addr.extractLsb' 16 32,
        wordOf ((x.addr.extractLsb' 0 16).toNat * 2 ^ 16 + x.mtu),
        wordOf (x.port.val * 2 ^ 24 + (match x.vlan with | none => 0 | some v => v) * 2 ^ 12)]) ∧
  ∀ (r : Result) kind low, kind < 16 → low < 256 → (∀ len tag, r.matched = some (len, tag) → len ≤ 128) →
    let w := r.word0 kind low
    bits w 31 28 = kind ∧ bits w 27 26 = r.verdict.code ∧ bits w 25 23 = r.reason.code ∧
      (bits w 22 22 = 1 ↔ r.viaBackup = true) ∧ (bits w 21 21 = 1 ↔ r.matched ≠ none) ∧
      (bits w 20 20 = 1 ↔ ∃ x, r.exit = some x ∧ x.vlan ≠ none) ∧ bits w 19 16 = 0 ∧
      bits w 15 8 = (match r.matched with | some m => m.1 | none => 0) ∧ bits w 7 0 = low

/-! ## Jobs -/

/-- JOB START takes the lowest IDLE slot, and the pin of a REPOINT (R131, R132). The next step goes to the first
eligible slot after the last slot stepped, in cyclic order, when no step is WAITING or TAKEN (R140); that the choice which
follows JOB START is made in the same step is the model's (DEDUCED, notes/assumptions/15.md). JOB READ answers the slot
in R198's words (R147); that an absent filter field and its presence bit read as 0, and a NARROW cover's other three
words, is the model's reading (DEDUCED, notes/assumptions/9.md). -/
def Obligations.JobsStartAndRotate : Prop :=
  let keyWords := fun k : Key => match k with
    | .narrow k => [k, 0#32, 0#32, 0#32]
    | .wide k => [k.extractLsb' 96 32, k.extractLsb' 64 32, k.extractLsb' 32 32, k.extractLsb' 0 32]
  let family := fun f : Family => match f with | .narrow => 1 | .wide => 2
  let target := fun t : Target => match t with
    | .pathSet i => wordOf (2 ^ 24 + i)
    | .exit i => wordOf (2 * 2 ^ 24 + i)
    | .discard => wordOf (3 * 2 ^ 24)
    | .control => wordOf (4 * 2 ^ 24)
  let words := fun (j : Job) (state : Nat) =>
    [pack8 state (match j.spec with | .survey _ _ => 1 | .refill _ _ => 2)
        (match j.outcome with | none => 0 | some .done => 1 | some .cancelled => 2) (if j.cursor.isSome then 1 else 0),
      wordOf j.visited, wordOf j.matched, wordOf j.acted] ++
    match j.spec with
    | .refill first last => [pack16 first last, (match j.cursor with | some (.set i) => wordOf i | _ => 0#32)]
    | .survey f a =>
      [pack8 1 (match a with | .count => 1 | .retire => 2 | .repoint _ => 3 | .sweep => 4 | .clearMarks => 5)
          ((if f.domain.isSome then 1 else 0) + (if f.family.isSome then 2 else 0) + (if f.cover.isSome then 4 else 0)
            + (if f.target.isSome then 8 else 0) + (if f.cls.isSome then 16 else 0))
          (match f.cover with | none => 0 | some c => c.2),
        pack8 (match f.domain with | none => 0 | some d => d.val) (match f.family with | none => 0 | some x => family x)
          (match f.cls with | none => 0 | some .static => 1 | some .learned => 2) 0,
        (match f.target with | none => 0#32 | some t => target t),
        (match a with | .repoint t => target t | _ => 0#32)] ++
      (match f.cover with | none => [0#32, 0#32, 0#32, 0#32] | some c => keyWords c.1) ++
      (match j.cursor with
        | some (.route i) => pack8 i.domain (family i.key.family) i.len 0 :: keyWords i.key
        | _ => [0#32, 0#32, 0#32, 0#32, 0#32])
  (∀ s ps spec, s.works 0x70 ps → jobSpecOf ps = some spec →
    (spec.keyOk = false → exec .jobStart s = .next (s.answered .badKey [])) ∧
    (spec.keyOk = true →
      ((∀ n, s.slot n ≠ .idle) → exec .jobStart s = .next (s.answered .noSlot [])) ∧
      ∀ n : Fin 4, s.slot n = .idle → (∀ m : Fin 4, m.val < n.val → s.slot m ≠ .idle) →
        (∀ t, spec.pin = some t → s.pt.stands t = false → exec .jobStart s = .next (s.answered .noTarget [])) ∧
        ((∀ t, spec.pin = some t → s.pt.stands t = true) →
          let pt := match spec.pin with | some t => s.pt.countPin (· + 1) t | none => s.pt
          exec .jobStart s = .next ((((s.setPt pt).setSlot n
            (.running ⟨spec, none, 0, 0, 0, .none, none⟩)).presentStep false).answered .ok
            [BitVec.ofNat 32 (n.val * 2 ^ 24)])))) ∧
  (∀ (s : State) (n : Fin 4) j k together, s.dev.phase = .running → s.restarting = false →
    (∀ m, (s.slot m).stepping = false) → s.slot n = .running j → j.outcome = none → j.step = .none → k < 4 →
    n.val = (s.je.last.val + 1 + k) % 4 →
    (∀ i (m : Fin 4), i < k → m.val = (s.je.last.val + 1 + i) % 4 → (s.slot m).eligible = false) →
    let t := (s.setSlot n (.running { j with step := .waiting }))
    (∀ f a, j.spec = .survey f a → s.presentStep together = t.setJe { t.je with last := n }) ∧
    ∀ x y, j.spec = .refill x y →
      s.presentStep together = (t.setJe { t.je with last := n }).setPt (s.pt.present (.refill n) together)) ∧
  ∀ s ps (n : Fin 4), s.works 0x72 ps → bits (param ps 0) 31 24 = n.val →
    (s.slot n = .idle → exec .jobRead s = .next (s.answered .ok [0#32])) ∧
    (∀ j, s.slot n = .running j → exec .jobRead s = .next (s.answered .ok (words j 1))) ∧
    ∀ j, s.slot n = .ended j → exec .jobRead s = .next (s.answered .ok (words j 2))

/-- STEP_CLAIM: a command claim that waits or is in progress at the Route Store goes before a step that is WAITING, and so does a
waiting lookup unless 16 have passed it; otherwise, and of a step that is TAKEN, the next route of the span is visited, tested
against the filter and acted on, or the job has reached its end (R17, R133, R135, R136, R137, R138, R141). A step that changes
references, because it withdraws or repoints a route to a path set or an exit, does so within a reference claim on the Path
Table; while that waits its turn there, the step is TAKEN (R16, R36). -/
def Obligations.SurveySteps : Prop :=
  ∀ s (n : Fin 4) j f a, s.dev.phase = .running → s.restarting = false → s.slot n = .running j →
    (∀ m, m ≠ n → (s.slot m).stepping = false) → j.spec = .survey f a →
    (j.step = .waiting → s.commandAtRouteStore = true → exec .stepClaim s = .next s) ∧
    (j.step = .waiting → s.su.claimWaits = true → s.rs.fairness < 16 → exec .stepClaim s = .next s) ∧
    (j.step = .taken ∨ (j.step = .waiting ∧ s.commandAtRouteStore = false ∧
        (s.su.claimWaits = true → 16 ≤ s.rs.fairness)) →
      let s1 := s.setRs { s.rs with fairness := 0 }
      let s2 := s1.setPt (s.pt.withdraw .reference)
      let inSpan := fun r : Route => ∀ d, f.domain = some d → r.ident.domain = d
      let found := fun r => (∃ i, j.cursor = some (.route i) ∧ s.rs.successor i = some r ∧ inSpan r) ∨
        (j.cursor = none ∧ ∃ before after, s.rs.routes = before ++ r :: after ∧ inSpan r ∧ ∀ x ∈ before, ¬ inSpan x)
      let agrees := fun r : Route => inSpan r ∧ (∀ x, f.family = some x → r.family = x) ∧
        (∀ k l, f.cover = some (k, l) → l ≤ r.ident.len ∧ k.family = r.family ∧
          ∀ i, i < l → k.bit i = r.ident.key.bit i) ∧
        (∀ t, f.target = some t → r.target = t) ∧ ∀ c, f.cls = some c → r.cls = c
      let withdraws := fun r : Route => a = .retire ∨ (a = .sweep ∧ r.cls = .learned ∧ r.mark = false)
      let repoints := fun r : Route => ∃ t, a = .repoint t ∧ r.target ≠ t
      let refers := fun r => agrees r ∧ (withdraws r ∧ r.target.counted = true ∨ repoints r)
      let after := fun (r : Route) m k => ({ j with
        cursor := some (.route r.ident), visited := min (j.visited + 1) 4294967295,
        matched := if m then min (j.matched + 1) 4294967295 else j.matched,
        acted := if k then min (j.acted + 1) 4294967295 else j.acted } : Job)
      (j.cursor = none ∨ (∃ i, j.cursor = some (.route i)) → (∀ r, ¬ found r) → exec .stepClaim s =
        .next (s1.finishStep n { j with outcome := some (j.outcome.getD .done) })) ∧
      ∀ r, found r →
        (refers r → s.ptAdmits .reference = false → exec .stepClaim s =
          .next ((s1.setPt (s.pt.offer .reference)).setSlot n (.running { j with step := .taken }))) ∧
        (¬ agrees r → exec .stepClaim s = .next (s1.finishStep n (after r false false))) ∧
        (agrees r → (refers r → s.ptAdmits .reference = true) →
          (a = .count → exec .stepClaim s = .next (s1.finishStep n (after r true false))) ∧
          (withdraws r → exec .stepClaim s =
            .next (((if r.target.counted then s2 else s1).withdrawRoute r).finishStep n (after r true true))) ∧
          (a = .repoint r.target → exec .stepClaim s = .next (s1.finishStep n (after r true false))) ∧
          (∀ t, a = .repoint t → r.target ≠ t → exec .stepClaim s =
            .next (((s2.setPt ((s2.pt.countRoute (· + 1) t).countRoute (· - 1) r.target)).setRs
              (s2.rs.updRoute r.ident fun x => { x with target := t })).finishStep n (after r true true))) ∧
          (a = .sweep → r.cls = .static → exec .stepClaim s = .next (s1.finishStep n (after r true false))) ∧
          (a = .sweep → r.cls = .learned → r.mark = true → exec .stepClaim s =
            .next ((s1.setRs (s1.rs.updRoute r.ident fun x => { x with mark := false })).finishStep n
              (after r true true))) ∧
          (a = .clearMarks → r.mark = false → r.hits = 0 →
            exec .stepClaim s = .next (s1.finishStep n (after r true false))) ∧
          (a = .clearMarks → (r.mark = true ∨ 0 < r.hits) → exec .stepClaim s =
            .next ((s1.setRs (s1.rs.updRoute r.ident fun x => { x with mark := false, hits := 0 })).finishStep n
              (after r true true))))) ∧
    (j.step = .taken → exec .stepClaim s = .next (match s.makeStep j f a with
      | (u, some k) => u.finishStep n k
      | (u, none) => u.setSlot n (.running { j with step := .taken })))

/-- REFILL_CLAIM: the fill rule on the set after the cursor, counted when the set is ACTIVE, acted on when a bucket
changed; the last ID of the range ends the job (R68, R139). A WAITING claim that the Path Table does not take waits on
(R36); a TAKEN one is finished. -/
def Obligations.RefillSteps : Prop :=
  ∀ s (n : Fin 4) j first last i, s.dev.phase = .running → s.restarting = false → s.slot n = .running j →
    (∀ m, m ≠ n → (s.slot m).stepping = false) → j.spec = .refill first last →
    (j.step = .waiting → s.ptTakes (.refill n) = false → exec .refillClaim s = .next s) ∧
    (j.step = .taken ∨ (j.step = .waiting ∧ s.ptTakes (.refill n) = true) →
    ((j.cursor = none ∧ i = first) ∨ ∃ c, j.cursor = some (.set c) ∧ i = c + 1) →
    let s1 := s.setPt (s.pt.withdraw (.refill n))
    let ended := fun j : Job => if i = last then { j with outcome := some (j.outcome.getD .done) } else j
    (s.pt.set? i = none → exec .refillClaim s = .next (s1.finishStep n (ended { j with cursor := some (.set i) }))) ∧
    ∀ p, s.pt.set? i = some p → p.map.length = 64 →
      exec .refillClaim s = .next ((s1.setPt (s1.pt.updSet i fun q => { q with map := fillMap q.members })).finishStep n
        (ended { j with
          cursor := some (.set i), visited := min (j.visited + 1) 4294967295,
          matched := min (j.matched + 1) 4294967295,
          acted := if p.map = fillMap p.members then j.acted else min (j.acted + 1) 4294967295 })))

/-- What follows a step: the next choice while the outcome is absent; else the slot is ENDED and its JOB record posted
in one act, at once or, for a REPOINT job, by its pin claim; a JOB CANCEL of the slot is answered then. JOB CANCEL
withdraws a WAITING claim and ends the job; a TAKEN step is finished first (R17, R140, R143, R144, R145). That the next
choice is made in the same step, and its claim presented at the moment of the pin claim, is the model's (DEDUCED,
notes/assumptions/15.md and 13.md); so is when a step is TAKEN (DESIGN CHOICE, notes/assumptions/6.md). -/
def Obligations.JobsEnd : Prop :=
  let answer := fun (o : JobOutcome) (j : Job) =>
    [BitVec.ofNat 32 ((if o = .done then 1 else 2) * 2 ^ 24), wordOf j.visited, wordOf j.matched,
      wordOf j.acted]
  (∀ (s : State) (n : Fin 4) j, (∀ ws m, s.cu = .busy ws (.cancelling m) → m = n ∨ ∀ i, s.slot m ≠ .ended i) →
    let rest : Job := { j with step := .none }
    (j.outcome = none → s.finishStep n j = (s.setSlot n (.running rest)).presentStep false) ∧
    (∀ o, j.outcome = some o → j.spec.pin = none →
      let ended := (s.setSlot n (.ended rest)).post (.job n j.spec.kind o j.visited j.matched j.acted)
      ((∀ ws, s.cu ≠ .busy ws (.cancelling n)) → s.finishStep n j = ended.presentStep false) ∧
      ∀ ws, s.cu = .busy ws (.cancelling n) →
        s.finishStep n j = (ended.setCu (.busy ws (.answered ⟨.ok, answer o j⟩))).presentStep false) ∧
    (∀ o, j.outcome = some o → j.spec.pin ≠ none → s.finishStep n j =
      ((s.setSlot n (.running rest)).setPt (s.pt.present (.pin n))).presentStep true)) ∧
  (∀ s (n : Fin 4) j o t, s.dev.phase = .running → s.restarting = false → s.slot n = .running j → j.outcome = some o →
    j.step = .none → j.spec.pin = some t →
    (s.ptTakes (.pin n) = false → exec (.pinClaim n) s = .next s) ∧
    (s.ptTakes (.pin n) = true →
      let u := ((s.setPt ((s.pt.withdraw (.pin n)).countPin (· - 1) t)).setSlot n (.ended j)).post
        (.job n j.spec.kind o j.visited j.matched j.acted)
      ((∀ ws m, s.cu = .busy ws (.cancelling m) → m ≠ n ∧ ∀ i, s.slot m ≠ .ended i) →
        exec (.pinClaim n) s = .next (u.presentStep false)) ∧
      ∀ ws, s.cu = .busy ws (.cancelling n) →
        exec (.pinClaim n) s = .next ((u.setCu (.busy ws (.answered ⟨.ok, answer o j⟩))).presentStep false))) ∧
  ∀ s ps (n : Fin 4), s.works 0x71 ps → bits (param ps 0) 31 24 = n.val →
    ((∀ j, s.slot n ≠ .running j) → exec .jobCancel s = .next (s.answered .notRunning [])) ∧
    ∀ j, s.slot n = .running j →
      (j.outcome ≠ none → exec .jobCancel s = .next (s.withProgress (.cancelling n))) ∧
      (j.outcome = none → j.step = .taken → exec .jobCancel s =
        .next ((s.setSlot n (.running { j with outcome := some .cancelled })).withProgress (.cancelling n))) ∧
      (j.outcome = none → j.step ≠ .taken →
        let s1 := if j.step = .waiting then
            (match j.spec with
              | .survey _ _ => s.setRs { s.rs with fairness := 0 }
              | .refill _ _ => s.setPt (s.pt.withdraw (.refill n)))
          else s
        let rest : Job := { j with step := .none, outcome := some .cancelled }
        (j.spec.pin = none → exec .jobCancel s = .next ((((s1.setSlot n (.ended rest)).post
          (.job n j.spec.kind .cancelled j.visited j.matched j.acted)).presentStep false).answered .ok (answer .cancelled j))) ∧
        (j.spec.pin ≠ none → exec .jobCancel s = .next ((((s1.setSlot n (.running rest)).setPt
          (s1.pt.present (.pin n))).presentStep true).withProgress (.cancelling n))))

/-! ## Attention -/

/-- The AU takes a posting: dropped when its kind is masked, else its source's record is updated in place, else a record
is added at the end (R152, R153). The mask has one setting each for PORT, LANE and SPACE, and JOB cannot be masked (R155). -/
def Obligations.PostingsAreTaken : Prop :=
  (∀ au : AttentionUnit,
    (∀ p live, au.masks (.port p live) = au.maskPort) ∧ (∀ n cause, au.masks (.lane n cause) = au.maskLane) ∧
    (∀ u, au.masks (.space u) = au.maskSpace) ∧ ∀ n k o v m a, au.masks (.job n k o v m a) = false) ∧
  ∀ (au : AttentionUnit) (p : Posting),
    (au.masks p = true → au.take p = au) ∧
    (au.masks p = false → (∀ r ∈ au.list, r.source ≠ p.record.source) →
      au.take p = { au with list := au.list ++ [match p with
        | .port q live => .port q live 1
        | .lane n .overrun => .lane n ⟨true, false, false⟩ 1
        | .lane n .check => .lane n ⟨false, true, false⟩ 1
        | .lane n .linkLost => .lane n ⟨false, false, true⟩ 1
        | .space u => .space u
        | .job n k o v m a => .job n k o v m a] }) ∧
    (au.masks p = false → ∀ before r after, au.list = before ++ r :: after →
      (∀ x ∈ before ++ after, x.source ≠ p.record.source) → ∀ r',
      ((∃ q live old c, p = .port q live ∧ r = .port q old c ∧ r' = .port q live (min (c + 1) 255)) ∨
        (∃ n cause cs c, p = .lane n cause ∧ r = .lane n cs c ∧
          r' = .lane n ⟨cs.overrun || cause == .overrun, cs.check || cause == .check,
            cs.linkLost || cause == .linkLost⟩ (min (c + 1) 255)) ∨
        ∃ u old, p = .space u ∧ r = .space old ∧ r' = .space u) →
      au.take p = { au with list := before ++ r' :: after })

/-- COLLECT removes and answers the head record, a JOB record's slot becoming IDLE in the same act, or answers EMPTY;
ATTENTION MASK writes the selected settings and answers the mask (R146, R156, R158, R159, R199). -/
def Obligations.CollectAndMask : Prop :=
  (∀ s ps, s.works 0x80 ps →
    (s.au.list = [] → exec .collect s = .next (s.answered .empty [])) ∧
    ∀ r rest, s.au.list = r :: rest →
      let t := s.setAu { s.au with list := rest }
      (∀ p live c, r = .port p live c → exec .collect s = .next (t.answered .ok
        [pack8 1 p 0 rest.length, pack8 (if live then 1 else 0) 0 0 c])) ∧
      (∀ n k o v m a, r = .job n k o v m a → exec .collect s = .next ((t.setSlot n .idle).answered .ok
        [pack8 2 n 0 rest.length, pack8 k.code o.code 0 0, wordOf v, wordOf m, wordOf a])) ∧
      (∀ n cs c, r = .lane n cs c → exec .collect s = .next (t.answered .ok
        [pack8 3 n 0 rest.length, pack8 ((if cs.overrun then 1 else 0) + (if cs.check then 2 else 0)
          + (if cs.linkLost then 4 else 0)) 0 0 c])) ∧
      ∀ u, r = .space u → exec .collect s = .next (t.answered .ok [pack8 4 0 0 rest.length, wordOf u])) ∧
  ∀ s ps p l sp, s.works 0x81 ps →
    (∀ (code : Nat) (old new : Bool), (code, old, new) ∈ [(bits (param ps 0) 31 24, s.au.maskPort, p),
        (bits (param ps 0) 23 16, s.au.maskLane, l), (bits (param ps 0) 15 8, s.au.maskSpace, sp)] →
      (code = 0 ∧ new = old) ∨ (code = 1 ∧ new = true) ∨ (code = 2 ∧ new = false)) →
    exec .attentionMask s = .next ((s.setAu { s.au with maskPort := p, maskLane := l, maskSpace := sp }).answered .ok
      [BitVec.ofNat 32 ((if p then 1 else 0) + (if l then 2 else 0) + (if sp then 4 else 0))])

/-! ## RESTART and the resets -/

/-- RESTART makes its parts in the lanes, the SU, the JE and the AU, and withdraws what the SU and the JE have waiting at the
Route Store and the Path Table (R112, R128, R149, R162). Once no claim is in progress at those two it makes its parts there;
until then a claim that is TAKEN finishes with its effect, and the JE and the SU discard what it reports (R27, R51, R128, R149).
Then its claim on the port table is presented, and its part in PMON is made when no claim presented before waits there (R84,
R89). It keeps the watermarks, the hold-down time, the lane weights and the mask; the answer is formed by RESTART_COMPLETE,
when no claim waits (R182, R184). Until then no grant is made, the JE presents no claim, and a posting is dropped; from its
parts in them on, the Route Store and the Path Table take no claim; from its part in PMON on, PMON takes no report and drops
one handed to it without a credit (R183), and as no timer runs then, HOLD_DOWN_EXPIRY changes nothing. That the parts are made
in this order is the model's (DESIGN CHOICE, notes/assumptions/12.md), as are how its claims wait (DESIGN CHOICE, 13.md), that
the clock is kept (DESIGN CHOICE, 4.md), that the signal on a line is kept (DEDUCED, 22.md), and that the lane counts the
report that PMON drops as pending, which no run shows (DEDUCED, 23.md). -/
def Obligations.RestartEmptiesTables : Prop :=
  (∀ s ps, s.works 0x91 ps →
    let units := fun u : State => ((u.setLanes
      (s.lanes.map fun l : Lane => (⟨.disabled, [], 0, 0, 0, l.weight, 0, 0, 0, 0, 0, none, l.signal⟩ : Lane))).setSu
      ⟨none, none, 0, (s.lane 0).weight⟩).setAu { s.au with list := [] }
    let tables := fun u : State => ((u.setRs { RouteStore.reset with high := s.rs.high, low := s.rs.low }).setPt
      ⟨[], [], [], none⟩).setJe ⟨Vector.replicate 4 .idle, 3, []⟩
    let orphans : List PortClaim := s.pmon.waiting.flatten.map fun c => match c with
      | .report r => .report { r with credit := false }
      | c => c
    let free := s.rsFree = true ∧ s.ptFree = true
    let next := s.pmon.waiting = [] ∨ ∃ g rest, s.pmon.waiting = g :: rest ∧ .command ∈ g
    (free → next →
      let t := ((tables (units s)).setPmon ⟨Vector.replicate 64 ⟨.none, .none, .unknown, false, none, .idle⟩,
        s.pmon.holdDown, [], s.pmon.now⟩).withProgress .restarting
      exec .restart s = .next t ∧ exec .restartComplete t = .next (t.answered .ok []) ∧
      ∀ p, exec (.holdDownExpiry p) t = .next t) ∧
    ∀ ws p, s.cu = .busy ws p →
      (free → ¬ next → ∃ waiting, waiting.flatten = orphans ++ (if .command ∈ orphans then [] else [.command]) ∧
        exec .restart s = .next (((tables (units s)).setPmon { s.pmon with waiting := waiting }).setCu
          (.busy ws .restartPorts))) ∧
      (¬ free → ∃ waiting line, waiting.flatten = orphans ∧
        line.flatten = s.pt.waiting.flatten.filter (fun c => match c with
          | .refill _ | .pin _ | .resolution => false
          | _ => true) ∧
        exec .restart s = .next ((((((units s).setRs { s.rs with
          fairness := if s.je.stepClaimWaits then 0 else s.rs.fairness }).setPt { s.pt with waiting := line }).setPmon
          { s.pmon with waiting := waiting }).setJe ⟨Vector.replicate 4 .idle, 3,
          s.je.jobs.map fun j => if j.step = .waiting then { j with step := .none } else j⟩).setCu
          (.busy ws .restartLeft)))) ∧
  (∀ s ws, s.dev.phase = .running → s.cu = .busy ws .restarting → s.pt.waiting = [] → s.su.lookup = none →
    s.su.probe = none → (∀ n, (s.slot n).stepping = false) → s.pmon.waiting = [] →
    exec .restartComplete s = .next (s.setCu (.busy ws (.answered ⟨.ok, []⟩)))) ∧
  (∀ s ws before j after, s.dev.phase = .running → s.cu = .busy ws .restartLeft → (∀ n, (s.slot n).stepping = false) →
    s.je.dropped = before ++ j :: after → j.step = .taken → (∀ x ∈ before ++ after, x.step ≠ .taken) →
    let finished := fun (u : State) => u.setJe { u.je with dropped := before ++ { j with step := .none } :: after }
    (∀ f a, j.spec = .survey f a → exec .stepClaim s = .next
      (match s.makeStep j f a with | (u, some _) => finished u | (u, none) => u)) ∧
    ∀ first last, j.spec = .refill first last →
      exec .refillClaim s = .next (finished (s.setPt (s.pt.refill j first last).1))) ∧
  (∀ s ws, s.dev.phase = .running → s.cu = .busy ws .restartLeft → s.su.lookup = none → s.pt.taken = some .resolution →
    exec .resolutionClaim s = .next (if s.pmon.admits .read then
      (s.setPt { s.pt.withdraw .resolution with taken := none }).setPmon (s.pmon.withdraw .read) else s)) ∧
  (∀ s : State,
    (s.restarting = true ↔ ∃ ws, s.cu = .busy ws .restartLeft ∨ s.cu = .busy ws .restartPorts ∨
      s.cu = .busy ws .restarting) ∧
    (s.restarting = true →
      exec .grant s = .next s ∧ exec .lookupClaim s = .next s ∧ (∀ n, exec (.pinClaim n) s = .next s) ∧
      (∀ together, s.presentStep together = s) ∧ s.takeStep = s ∧ ∀ p, s.post p = s)) ∧
  (∀ s : State,
    (s.tablesHeld = true ↔ ∃ ws, s.cu = .busy ws .restartPorts ∨ s.cu = .busy ws .restarting) ∧
    (s.tablesHeld = true →
      exec .resolutionClaim s = .next s ∧ exec .stepClaim s = .next s ∧ exec .refillClaim s = .next s ∧
      (∀ p, exec (.visitClaim p) s = .next s) ∧ s.takeVisit = s)) ∧
  ∀ s : State,
    (s.portsHeld = true ↔ ∃ ws, s.cu = .busy ws .restarting) ∧
    (s.portsHeld = true → exec .reportTaken s = .next s ∧
      ∀ n p st, s.dev.phase = .running → (s.lane n).link = .up → (s.lane n).reportsPending < 32 →
        exec (.port n p st) s = .next (s.updLane n fun l =>
          { l with held := l.held - 1, reportsPending := l.reportsPending + 1 }))

/-- RESET# low for 1 µs or longer, or an invalid supply, stops every block and abandons the work in flight; a shorter
low is ignored. With RESET# high and all supplies valid the start-up clearing begins with LOST 0, and it ends with
every block at its hardware-reset values (R185, R186, R187, R200). What stands between the reset's taking effect and
the clearing's end is the model's choice (DESIGN CHOICE, notes/assumptions/10.md); so is that the word last read and the
clock are kept through the clearing (18.md, 4.md), and that the clearing's end changes nothing when no clearing runs
(1.md); that the signal on each lane's line is kept is its reading (DEDUCED, 22.md). -/
def Obligations.ResetsAndClearing : Prop :=
  ∀ s : State,
    (∀ ns, ns < 1000 → exec (.hardwareReset ns) s = .next s) ∧
    (∀ ns, 1000 ≤ ns → exec (.hardwareReset ns) s =
      .next (s.abandonWork.setDev { s.dev with resetLow := true, phase := .held })) ∧
    (exec (.supplyInvalid .vdd) s = .next (s.abandonWork.setDev { s.dev with vddValid := false, phase := .held })) ∧
    (exec (.supplyInvalid .vddio) s =
      .next (s.abandonWork.setDev { s.dev with vddioValid := false, phase := .held })) ∧
    (exec (.supplyInvalid .vddl) s =
      .next (s.abandonWork.setDev { s.dev with vddlValid := false, phase := .held })) ∧
    (s.abandonWork.cu = .idle ∧ s.abandonWork.su.lookup = none ∧ s.abandonWork.pt.waiting = [] ∧
      s.abandonWork.pt.taken = none ∧ s.abandonWork.au.list = [] ∧ s.abandonWork.pmon.waiting = [] ∧ s.abandonWork.mp.abortHeld = false ∧
      (∀ n, (s.abandonWork.lane n).link = .disabled) ∧ ∀ n, s.abandonWork.slot n = .idle) ∧
    (s.dev.phase = .held → s.dev.vddValid = true → s.dev.vddioValid = true → s.dev.vddlValid = true →
      exec .resetRelease s = .next ((s.setMp { s.mp with lost := false }).setDev
        { s.dev with resetLow := false, phase := .clearing })) ∧
    (s.dev.phase = .held → (s.dev.vddValid && s.dev.vddioValid && s.dev.vddlValid) = false →
      exec .resetRelease s = .next (s.setDev { s.dev with resetLow := false })) ∧
    (s.dev.phase = .held → s.dev.resetLow = false → exec .supplyValid s =
      .next ((s.setMp { s.mp with lost := false }).setDev
        { s.dev with vddValid := true, vddioValid := true, vddlValid := true, phase := .clearing })) ∧
    (s.dev.phase = .held → s.dev.resetLow = true → exec .supplyValid s =
      .next (s.setDev { s.dev with vddValid := true, vddioValid := true, vddlValid := true })) ∧
    (s.dev.phase = .clearing → exec .startupClearingEnd s = .next
      { State.reset with
        mp := { State.reset.mp with lost := s.mp.lost, readWord := s.mp.readWord }
        pmon := { State.reset.pmon with now := s.pmon.now }
        lanes := s.lanes.map fun l => { Lane.reset with signal := l.signal }
        dev := { s.dev with phase := .running }
        pending := s.pending }) ∧
    (s.dev.phase ≠ .clearing → exec .startupClearingEnd s = .next s)

/-! ## Laws that every step keeps -/

/-- Every step keeps the law of the Route Store: table order without duplicates, units in use, route counts
(R3, R4, R8). -/
def Obligations.RouteStoreLawKept : Prop :=
  ∀ s t : State, s.rs.lawful → step s = .next t → t.rs.lawful

/-- Every step keeps the law of the Path Table: tables in ascending ID, members, and the law of every bucket map
(R30, R55). -/
def Obligations.BucketMapLawKept : Prop :=
  ∀ s t : State, s.pt.lawful → step s = .next t → t.pt.lawful

/-- Every step from a state that meets the laws of the tables and of attention keeps the agreement of references with
what names the records, while the blocks run (R31 to R34). -/
def Obligations.ReferencesLawKept : Prop :=
  ∀ s t : State, s.rs.lawful → s.pt.lawful → s.attentionLawful → (s.dev.phase = .running → s.referencesAgree) →
    step s = .next t → t.dev.phase = .running → t.referencesAgree

/-- Every step keeps each port's effective state the one R71 gives, and its timer RUNNING exactly in RECOVERING, while
the blocks run (R70, R71, R73, R75). -/
def Obligations.PortLawKept : Prop :=
  ∀ s t : State, (s.dev.phase = .running → ∀ p, (s.port p).lawful) → step s = .next t →
    t.dev.phase = .running → ∀ p, (t.port p).lawful

/-- Every step keeps the bounds of the lanes, their weights and their counters, the order of their queues, and the GRANTED entry that of the lookup in
flight (R90, R97, R102). -/
def Obligations.LaneLawKept : Prop :=
  ∀ s t : State, s.lanesLawful → step s = .next t → t.lanesLawful

/-- Every step on which the client keeps to its credits keeps the five quantities of R101 at 32 together. -/
def Obligations.CreditLawKept : Prop :=
  ∀ s t : State, s.creditsConserved → (∀ c rest, s.pending = c :: rest → s.clientConforms c) → step s = .next t →
    t.creditsConserved

/-- Every step keeps one record a source, and a slot ENDED exactly when the list holds its JOB record (R144, R151,
R153, R159). -/
def Obligations.AttentionLawKept : Prop :=
  ∀ s t : State, s.attentionLawful → step s = .next t → t.attentionLawful

/-- Every step keeps the port and the CU in agreement, while the blocks run (R164, R170, R171, R172, R175), and keeps the words
of a formed answer to at most 31 (R170), the path sets being lawful. -/
def Obligations.ManagementLawKept : Prop :=
  (∀ s t : State, (s.dev.phase = .running → s.managementLawful) → step s = .next t →
    t.dev.phase = .running → t.managementLawful) ∧
  ∀ s t : State, s.pt.lawful → s.answersFit → step s = .next t → t.answersFit

/-- All these laws hold right after reset. -/
def Obligations.LawsHoldAtReset : Prop :=
  State.reset.rs.lawful ∧ State.reset.pt.lawful ∧ State.reset.referencesAgree ∧
  (∀ p, (State.reset.port p).lawful) ∧ State.reset.lanesLawful ∧ State.reset.creditsConserved ∧
  State.reset.attentionLawful ∧ State.reset.managementLawful ∧ State.reset.answersFit
end

