-- ==== Sys2Proof/Laws/State.lean ====
section
/-! SUPPORT. What each named update of State changes: its own field, and no other. -/

namespace Sys2Proof.Machine

section
variable (s : State) (x : ManagementPort)

@[simp] theorem State.setMp_mp : (s.setMp x).mp = x := rfl
@[simp] theorem State.setMp_cu : (s.setMp x).cu = s.cu := rfl
@[simp] theorem State.setMp_rs : (s.setMp x).rs = s.rs := rfl
@[simp] theorem State.setMp_pt : (s.setMp x).pt = s.pt := rfl
@[simp] theorem State.setMp_pmon : (s.setMp x).pmon = s.pmon := rfl
@[simp] theorem State.setMp_lanes : (s.setMp x).lanes = s.lanes := rfl
@[simp] theorem State.setMp_su : (s.setMp x).su = s.su := rfl
@[simp] theorem State.setMp_je : (s.setMp x).je = s.je := rfl
@[simp] theorem State.setMp_au : (s.setMp x).au = s.au := rfl
@[simp] theorem State.setMp_dev : (s.setMp x).dev = s.dev := rfl
@[simp] theorem State.setMp_pending : (s.setMp x).pending = s.pending := rfl

end

section
variable (s : State) (x : CommandUnit)

@[simp] theorem State.setCu_mp : (s.setCu x).mp = s.mp := rfl
@[simp] theorem State.setCu_cu : (s.setCu x).cu = x := rfl
@[simp] theorem State.setCu_rs : (s.setCu x).rs = s.rs := rfl
@[simp] theorem State.setCu_pt : (s.setCu x).pt = s.pt := rfl
@[simp] theorem State.setCu_pmon : (s.setCu x).pmon = s.pmon := rfl
@[simp] theorem State.setCu_lanes : (s.setCu x).lanes = s.lanes := rfl
@[simp] theorem State.setCu_su : (s.setCu x).su = s.su := rfl
@[simp] theorem State.setCu_je : (s.setCu x).je = s.je := rfl
@[simp] theorem State.setCu_au : (s.setCu x).au = s.au := rfl
@[simp] theorem State.setCu_dev : (s.setCu x).dev = s.dev := rfl
@[simp] theorem State.setCu_pending : (s.setCu x).pending = s.pending := rfl

end

section
variable (s : State) (x : RouteStore)

@[simp] theorem State.setRs_mp : (s.setRs x).mp = s.mp := rfl
@[simp] theorem State.setRs_cu : (s.setRs x).cu = s.cu := rfl
@[simp] theorem State.setRs_rs : (s.setRs x).rs = x := rfl
@[simp] theorem State.setRs_pt : (s.setRs x).pt = s.pt := rfl
@[simp] theorem State.setRs_pmon : (s.setRs x).pmon = s.pmon := rfl
@[simp] theorem State.setRs_lanes : (s.setRs x).lanes = s.lanes := rfl
@[simp] theorem State.setRs_su : (s.setRs x).su = s.su := rfl
@[simp] theorem State.setRs_je : (s.setRs x).je = s.je := rfl
@[simp] theorem State.setRs_au : (s.setRs x).au = s.au := rfl
@[simp] theorem State.setRs_dev : (s.setRs x).dev = s.dev := rfl
@[simp] theorem State.setRs_pending : (s.setRs x).pending = s.pending := rfl

end

section
variable (s : State) (x : PathTable)

@[simp] theorem State.setPt_mp : (s.setPt x).mp = s.mp := rfl
@[simp] theorem State.setPt_cu : (s.setPt x).cu = s.cu := rfl
@[simp] theorem State.setPt_rs : (s.setPt x).rs = s.rs := rfl
@[simp] theorem State.setPt_pt : (s.setPt x).pt = x := rfl
@[simp] theorem State.setPt_pmon : (s.setPt x).pmon = s.pmon := rfl
@[simp] theorem State.setPt_lanes : (s.setPt x).lanes = s.lanes := rfl
@[simp] theorem State.setPt_su : (s.setPt x).su = s.su := rfl
@[simp] theorem State.setPt_je : (s.setPt x).je = s.je := rfl
@[simp] theorem State.setPt_au : (s.setPt x).au = s.au := rfl
@[simp] theorem State.setPt_dev : (s.setPt x).dev = s.dev := rfl
@[simp] theorem State.setPt_pending : (s.setPt x).pending = s.pending := rfl

end

section
variable (s : State) (x : PortMonitor)

@[simp] theorem State.setPmon_mp : (s.setPmon x).mp = s.mp := rfl
@[simp] theorem State.setPmon_cu : (s.setPmon x).cu = s.cu := rfl
@[simp] theorem State.setPmon_rs : (s.setPmon x).rs = s.rs := rfl
@[simp] theorem State.setPmon_pt : (s.setPmon x).pt = s.pt := rfl
@[simp] theorem State.setPmon_pmon : (s.setPmon x).pmon = x := rfl
@[simp] theorem State.setPmon_lanes : (s.setPmon x).lanes = s.lanes := rfl
@[simp] theorem State.setPmon_su : (s.setPmon x).su = s.su := rfl
@[simp] theorem State.setPmon_je : (s.setPmon x).je = s.je := rfl
@[simp] theorem State.setPmon_au : (s.setPmon x).au = s.au := rfl
@[simp] theorem State.setPmon_dev : (s.setPmon x).dev = s.dev := rfl
@[simp] theorem State.setPmon_pending : (s.setPmon x).pending = s.pending := rfl

end

section
variable (s : State) (x : Vector Lane 4)

@[simp] theorem State.setLanes_mp : (s.setLanes x).mp = s.mp := rfl
@[simp] theorem State.setLanes_cu : (s.setLanes x).cu = s.cu := rfl
@[simp] theorem State.setLanes_rs : (s.setLanes x).rs = s.rs := rfl
@[simp] theorem State.setLanes_pt : (s.setLanes x).pt = s.pt := rfl
@[simp] theorem State.setLanes_pmon : (s.setLanes x).pmon = s.pmon := rfl
@[simp] theorem State.setLanes_lanes : (s.setLanes x).lanes = x := rfl
@[simp] theorem State.setLanes_su : (s.setLanes x).su = s.su := rfl
@[simp] theorem State.setLanes_je : (s.setLanes x).je = s.je := rfl
@[simp] theorem State.setLanes_au : (s.setLanes x).au = s.au := rfl
@[simp] theorem State.setLanes_dev : (s.setLanes x).dev = s.dev := rfl
@[simp] theorem State.setLanes_pending : (s.setLanes x).pending = s.pending := rfl

end

section
variable (s : State) (x : SearchUnit)

@[simp] theorem State.setSu_mp : (s.setSu x).mp = s.mp := rfl
@[simp] theorem State.setSu_cu : (s.setSu x).cu = s.cu := rfl
@[simp] theorem State.setSu_rs : (s.setSu x).rs = s.rs := rfl
@[simp] theorem State.setSu_pt : (s.setSu x).pt = s.pt := rfl
@[simp] theorem State.setSu_pmon : (s.setSu x).pmon = s.pmon := rfl
@[simp] theorem State.setSu_lanes : (s.setSu x).lanes = s.lanes := rfl
@[simp] theorem State.setSu_su : (s.setSu x).su = x := rfl
@[simp] theorem State.setSu_je : (s.setSu x).je = s.je := rfl
@[simp] theorem State.setSu_au : (s.setSu x).au = s.au := rfl
@[simp] theorem State.setSu_dev : (s.setSu x).dev = s.dev := rfl
@[simp] theorem State.setSu_pending : (s.setSu x).pending = s.pending := rfl

end

section
variable (s : State) (x : JobEngine)

@[simp] theorem State.setJe_mp : (s.setJe x).mp = s.mp := rfl
@[simp] theorem State.setJe_cu : (s.setJe x).cu = s.cu := rfl
@[simp] theorem State.setJe_rs : (s.setJe x).rs = s.rs := rfl
@[simp] theorem State.setJe_pt : (s.setJe x).pt = s.pt := rfl
@[simp] theorem State.setJe_pmon : (s.setJe x).pmon = s.pmon := rfl
@[simp] theorem State.setJe_lanes : (s.setJe x).lanes = s.lanes := rfl
@[simp] theorem State.setJe_su : (s.setJe x).su = s.su := rfl
@[simp] theorem State.setJe_je : (s.setJe x).je = x := rfl
@[simp] theorem State.setJe_au : (s.setJe x).au = s.au := rfl
@[simp] theorem State.setJe_dev : (s.setJe x).dev = s.dev := rfl
@[simp] theorem State.setJe_pending : (s.setJe x).pending = s.pending := rfl

end

section
variable (s : State) (x : AttentionUnit)

@[simp] theorem State.setAu_mp : (s.setAu x).mp = s.mp := rfl
@[simp] theorem State.setAu_cu : (s.setAu x).cu = s.cu := rfl
@[simp] theorem State.setAu_rs : (s.setAu x).rs = s.rs := rfl
@[simp] theorem State.setAu_pt : (s.setAu x).pt = s.pt := rfl
@[simp] theorem State.setAu_pmon : (s.setAu x).pmon = s.pmon := rfl
@[simp] theorem State.setAu_lanes : (s.setAu x).lanes = s.lanes := rfl
@[simp] theorem State.setAu_su : (s.setAu x).su = s.su := rfl
@[simp] theorem State.setAu_je : (s.setAu x).je = s.je := rfl
@[simp] theorem State.setAu_au : (s.setAu x).au = x := rfl
@[simp] theorem State.setAu_dev : (s.setAu x).dev = s.dev := rfl
@[simp] theorem State.setAu_pending : (s.setAu x).pending = s.pending := rfl

end

section
variable (s : State) (x : Device)

@[simp] theorem State.setDev_mp : (s.setDev x).mp = s.mp := rfl
@[simp] theorem State.setDev_cu : (s.setDev x).cu = s.cu := rfl
@[simp] theorem State.setDev_rs : (s.setDev x).rs = s.rs := rfl
@[simp] theorem State.setDev_pt : (s.setDev x).pt = s.pt := rfl
@[simp] theorem State.setDev_pmon : (s.setDev x).pmon = s.pmon := rfl
@[simp] theorem State.setDev_lanes : (s.setDev x).lanes = s.lanes := rfl
@[simp] theorem State.setDev_su : (s.setDev x).su = s.su := rfl
@[simp] theorem State.setDev_je : (s.setDev x).je = s.je := rfl
@[simp] theorem State.setDev_au : (s.setDev x).au = s.au := rfl
@[simp] theorem State.setDev_dev : (s.setDev x).dev = x := rfl
@[simp] theorem State.setDev_pending : (s.setDev x).pending = s.pending := rfl

end

section
variable (s : State) (x : List Instr)

@[simp] theorem State.setPending_mp : (s.setPending x).mp = s.mp := rfl
@[simp] theorem State.setPending_cu : (s.setPending x).cu = s.cu := rfl
@[simp] theorem State.setPending_rs : (s.setPending x).rs = s.rs := rfl
@[simp] theorem State.setPending_pt : (s.setPending x).pt = s.pt := rfl
@[simp] theorem State.setPending_pmon : (s.setPending x).pmon = s.pmon := rfl
@[simp] theorem State.setPending_lanes : (s.setPending x).lanes = s.lanes := rfl
@[simp] theorem State.setPending_su : (s.setPending x).su = s.su := rfl
@[simp] theorem State.setPending_je : (s.setPending x).je = s.je := rfl
@[simp] theorem State.setPending_au : (s.setPending x).au = s.au := rfl
@[simp] theorem State.setPending_dev : (s.setPending x).dev = s.dev := rfl
@[simp] theorem State.setPending_pending : (s.setPending x).pending = x := rfl

end

end Sys2Proof.Machine
end

