-- ==== Sys2Proof/Laws/Frames.lean ====
section
/-! SUPPORT. Frames of the shared operations: the fields of State that each leaves as they are. -/

namespace Sys2Proof.Machine

-- One theorem after another: elaborated side by side, three hundred theorems need a thread each.
set_option Elab.async false

/-! ### State.post changes only au -/

section
variable (s : State) (p : Posting)

@[simp] theorem State.post_mp : (s.post p).mp = s.mp := by unfold State.post; split <;> simp
@[simp] theorem State.post_cu : (s.post p).cu = s.cu := by unfold State.post; split <;> simp
@[simp] theorem State.post_rs : (s.post p).rs = s.rs := by unfold State.post; split <;> simp
@[simp] theorem State.post_pt : (s.post p).pt = s.pt := by unfold State.post; split <;> simp
@[simp] theorem State.post_pmon : (s.post p).pmon = s.pmon := by unfold State.post; split <;> simp
@[simp] theorem State.post_lanes : (s.post p).lanes = s.lanes := by unfold State.post; split <;> simp
@[simp] theorem State.post_su : (s.post p).su = s.su := by unfold State.post; split <;> simp
@[simp] theorem State.post_je : (s.post p).je = s.je := by unfold State.post; split <;> simp
@[simp] theorem State.post_dev : (s.post p).dev = s.dev := by unfold State.post; split <;> simp
@[simp] theorem State.post_pending : (s.post p).pending = s.pending := by unfold State.post; split <;> simp

end

/-! ### State.updLane changes only lanes -/

section
variable (s : State) (n : Fin 4) (f : Lane → Lane)

@[simp] theorem State.updLane_mp : (s.updLane n f).mp = s.mp := rfl
@[simp] theorem State.updLane_cu : (s.updLane n f).cu = s.cu := rfl
@[simp] theorem State.updLane_rs : (s.updLane n f).rs = s.rs := rfl
@[simp] theorem State.updLane_pt : (s.updLane n f).pt = s.pt := rfl
@[simp] theorem State.updLane_pmon : (s.updLane n f).pmon = s.pmon := rfl
@[simp] theorem State.updLane_su : (s.updLane n f).su = s.su := rfl
@[simp] theorem State.updLane_je : (s.updLane n f).je = s.je := rfl
@[simp] theorem State.updLane_au : (s.updLane n f).au = s.au := rfl
@[simp] theorem State.updLane_dev : (s.updLane n f).dev = s.dev := rfl
@[simp] theorem State.updLane_pending : (s.updLane n f).pending = s.pending := rfl

end

/-! ### State.leaveUp changes only lanes, pmon -/

section
variable (s : State) (n : Fin 4) (x : Link)

@[simp] theorem State.leaveUp_mp : (s.leaveUp n x).mp = s.mp := rfl
@[simp] theorem State.leaveUp_cu : (s.leaveUp n x).cu = s.cu := rfl
@[simp] theorem State.leaveUp_rs : (s.leaveUp n x).rs = s.rs := rfl
@[simp] theorem State.leaveUp_pt : (s.leaveUp n x).pt = s.pt := rfl
@[simp] theorem State.leaveUp_su : (s.leaveUp n x).su = s.su := rfl
@[simp] theorem State.leaveUp_je : (s.leaveUp n x).je = s.je := rfl
@[simp] theorem State.leaveUp_au : (s.leaveUp n x).au = s.au := rfl
@[simp] theorem State.leaveUp_dev : (s.leaveUp n x).dev = s.dev := rfl
@[simp] theorem State.leaveUp_pending : (s.leaveUp n x).pending = s.pending := rfl

end

/-! ### State.detect changes only lanes -/

section
variable (s : State) (n : Fin 4)

@[simp] theorem State.detect_mp : (s.detect n).mp = s.mp := rfl
@[simp] theorem State.detect_cu : (s.detect n).cu = s.cu := rfl
@[simp] theorem State.detect_rs : (s.detect n).rs = s.rs := rfl
@[simp] theorem State.detect_pt : (s.detect n).pt = s.pt := rfl
@[simp] theorem State.detect_pmon : (s.detect n).pmon = s.pmon := rfl
@[simp] theorem State.detect_su : (s.detect n).su = s.su := rfl
@[simp] theorem State.detect_je : (s.detect n).je = s.je := rfl
@[simp] theorem State.detect_au : (s.detect n).au = s.au := rfl
@[simp] theorem State.detect_dev : (s.detect n).dev = s.dev := rfl
@[simp] theorem State.detect_pending : (s.detect n).pending = s.pending := rfl

end

/-! ### State.portClaim changes only pmon, pt, au -/

section
variable (s : State) (p : Fin 64) (f : Port → Port)

@[simp] theorem State.portClaim_mp : (s.portClaim p f).mp = s.mp := by unfold State.portClaim; dsimp only; split <;> simp
@[simp] theorem State.portClaim_cu : (s.portClaim p f).cu = s.cu := by unfold State.portClaim; dsimp only; split <;> simp
@[simp] theorem State.portClaim_rs : (s.portClaim p f).rs = s.rs := by unfold State.portClaim; dsimp only; split <;> simp
@[simp] theorem State.portClaim_lanes : (s.portClaim p f).lanes = s.lanes := by unfold State.portClaim; dsimp only; split <;> simp
@[simp] theorem State.portClaim_su : (s.portClaim p f).su = s.su := by unfold State.portClaim; dsimp only; split <;> simp
@[simp] theorem State.portClaim_je : (s.portClaim p f).je = s.je := by unfold State.portClaim; dsimp only; split <;> simp
@[simp] theorem State.portClaim_dev : (s.portClaim p f).dev = s.dev := by unfold State.portClaim; dsimp only; split <;> simp
@[simp] theorem State.portClaim_pending : (s.portClaim p f).pending = s.pending := by unfold State.portClaim; dsimp only; split <;> simp

end

/-! ### State.passTo changes only pmon -/

section
variable (s : State) (v : Visit) (x : Pass)

@[simp] theorem State.passTo_mp : (s.passTo v x).mp = s.mp := by unfold State.passTo; split <;> simp
@[simp] theorem State.passTo_cu : (s.passTo v x).cu = s.cu := by unfold State.passTo; split <;> simp
@[simp] theorem State.passTo_rs : (s.passTo v x).rs = s.rs := by unfold State.passTo; split <;> simp
@[simp] theorem State.passTo_pt : (s.passTo v x).pt = s.pt := by unfold State.passTo; split <;> simp
@[simp] theorem State.passTo_lanes : (s.passTo v x).lanes = s.lanes := by unfold State.passTo; split <;> simp
@[simp] theorem State.passTo_su : (s.passTo v x).su = s.su := by unfold State.passTo; split <;> simp
@[simp] theorem State.passTo_je : (s.passTo v x).je = s.je := by unfold State.passTo; split <;> simp
@[simp] theorem State.passTo_au : (s.passTo v x).au = s.au := by unfold State.passTo; split <;> simp
@[simp] theorem State.passTo_dev : (s.passTo v x).dev = s.dev := by unfold State.passTo; split <;> simp
@[simp] theorem State.passTo_pending : (s.passTo v x).pending = s.pending := by unfold State.passTo; split <;> simp

end

/-! ### State.visitPass changes only pt, pmon -/

section
variable (s : State) (v : Visit)

@[simp] theorem State.visitPass_mp : (s.visitPass v).mp = s.mp := by unfold State.visitPass; dsimp only; (repeat' split) <;> simp
@[simp] theorem State.visitPass_cu : (s.visitPass v).cu = s.cu := by unfold State.visitPass; dsimp only; (repeat' split) <;> simp
@[simp] theorem State.visitPass_rs : (s.visitPass v).rs = s.rs := by unfold State.visitPass; dsimp only; (repeat' split) <;> simp
@[simp] theorem State.visitPass_lanes : (s.visitPass v).lanes = s.lanes := by unfold State.visitPass; dsimp only; (repeat' split) <;> simp
@[simp] theorem State.visitPass_su : (s.visitPass v).su = s.su := by unfold State.visitPass; dsimp only; (repeat' split) <;> simp
@[simp] theorem State.visitPass_je : (s.visitPass v).je = s.je := by unfold State.visitPass; dsimp only; (repeat' split) <;> simp
@[simp] theorem State.visitPass_au : (s.visitPass v).au = s.au := by unfold State.visitPass; dsimp only; (repeat' split) <;> simp
@[simp] theorem State.visitPass_dev : (s.visitPass v).dev = s.dev := by unfold State.visitPass; dsimp only; (repeat' split) <;> simp
@[simp] theorem State.visitPass_pending : (s.visitPass v).pending = s.pending := by unfold State.visitPass; dsimp only; (repeat' split) <;> simp

end

/-! ### State.takeLookup changes only lanes, au -/

section
variable (s : State) (n : Fin 4) (t : Byte) (a : Option Ask)

@[simp] theorem State.takeLookup_mp : (s.takeLookup n t a).mp = s.mp := by unfold State.takeLookup; split <;> simp
@[simp] theorem State.takeLookup_cu : (s.takeLookup n t a).cu = s.cu := by unfold State.takeLookup; split <;> simp
@[simp] theorem State.takeLookup_rs : (s.takeLookup n t a).rs = s.rs := by unfold State.takeLookup; split <;> simp
@[simp] theorem State.takeLookup_pt : (s.takeLookup n t a).pt = s.pt := by unfold State.takeLookup; split <;> simp
@[simp] theorem State.takeLookup_pmon : (s.takeLookup n t a).pmon = s.pmon := by unfold State.takeLookup; split <;> simp
@[simp] theorem State.takeLookup_su : (s.takeLookup n t a).su = s.su := by unfold State.takeLookup; split <;> simp
@[simp] theorem State.takeLookup_je : (s.takeLookup n t a).je = s.je := by unfold State.takeLookup; split <;> simp
@[simp] theorem State.takeLookup_dev : (s.takeLookup n t a).dev = s.dev := by unfold State.takeLookup; split <;> simp
@[simp] theorem State.takeLookup_pending : (s.takeLookup n t a).pending = s.pending := by unfold State.takeLookup; split <;> simp

end

/-! ### State.evalWatermark changes only rs, au -/

section
variable (s : State)

@[simp] theorem State.evalWatermark_mp : (s.evalWatermark).mp = s.mp := by unfold State.evalWatermark; (repeat' split) <;> simp
@[simp] theorem State.evalWatermark_cu : (s.evalWatermark).cu = s.cu := by unfold State.evalWatermark; (repeat' split) <;> simp
@[simp] theorem State.evalWatermark_pt : (s.evalWatermark).pt = s.pt := by unfold State.evalWatermark; (repeat' split) <;> simp
@[simp] theorem State.evalWatermark_pmon : (s.evalWatermark).pmon = s.pmon := by unfold State.evalWatermark; (repeat' split) <;> simp
@[simp] theorem State.evalWatermark_lanes : (s.evalWatermark).lanes = s.lanes := by unfold State.evalWatermark; (repeat' split) <;> simp
@[simp] theorem State.evalWatermark_su : (s.evalWatermark).su = s.su := by unfold State.evalWatermark; (repeat' split) <;> simp
@[simp] theorem State.evalWatermark_je : (s.evalWatermark).je = s.je := by unfold State.evalWatermark; (repeat' split) <;> simp
@[simp] theorem State.evalWatermark_dev : (s.evalWatermark).dev = s.dev := by unfold State.evalWatermark; (repeat' split) <;> simp
@[simp] theorem State.evalWatermark_pending : (s.evalWatermark).pending = s.pending := by unfold State.evalWatermark; (repeat' split) <;> simp

end

/-! ### State.insertRoute changes only rs, au -/

section
variable (s : State) (r : Route)

@[simp] theorem State.insertRoute_mp : (s.insertRoute r).mp = s.mp := by simp [State.insertRoute]
@[simp] theorem State.insertRoute_cu : (s.insertRoute r).cu = s.cu := by simp [State.insertRoute]
@[simp] theorem State.insertRoute_pt : (s.insertRoute r).pt = s.pt := by simp [State.insertRoute]
@[simp] theorem State.insertRoute_pmon : (s.insertRoute r).pmon = s.pmon := by simp [State.insertRoute]
@[simp] theorem State.insertRoute_lanes : (s.insertRoute r).lanes = s.lanes := by simp [State.insertRoute]
@[simp] theorem State.insertRoute_su : (s.insertRoute r).su = s.su := by simp [State.insertRoute]
@[simp] theorem State.insertRoute_je : (s.insertRoute r).je = s.je := by simp [State.insertRoute]
@[simp] theorem State.insertRoute_dev : (s.insertRoute r).dev = s.dev := by simp [State.insertRoute]
@[simp] theorem State.insertRoute_pending : (s.insertRoute r).pending = s.pending := by simp [State.insertRoute]

end

/-! ### State.withdrawRoute changes only rs, pt, au -/

section
variable (s : State) (r : Route)

@[simp] theorem State.withdrawRoute_mp : (s.withdrawRoute r).mp = s.mp := by simp [State.withdrawRoute]
@[simp] theorem State.withdrawRoute_cu : (s.withdrawRoute r).cu = s.cu := by simp [State.withdrawRoute]
@[simp] theorem State.withdrawRoute_pmon : (s.withdrawRoute r).pmon = s.pmon := by simp [State.withdrawRoute]
@[simp] theorem State.withdrawRoute_lanes : (s.withdrawRoute r).lanes = s.lanes := by simp [State.withdrawRoute]
@[simp] theorem State.withdrawRoute_su : (s.withdrawRoute r).su = s.su := by simp [State.withdrawRoute]
@[simp] theorem State.withdrawRoute_je : (s.withdrawRoute r).je = s.je := by simp [State.withdrawRoute]
@[simp] theorem State.withdrawRoute_dev : (s.withdrawRoute r).dev = s.dev := by simp [State.withdrawRoute]
@[simp] theorem State.withdrawRoute_pending : (s.withdrawRoute r).pending = s.pending := by simp [State.withdrawRoute]

end

/-! ### State.handBack changes only su, lanes, cu -/

section
variable (s : State) (x : Source) (b : Nat) (r : Result)

@[simp] theorem State.handBack_mp : (s.handBack x b r).mp = s.mp := by
  unfold State.handBack; dsimp only
  (repeat' split) <;> simp
@[simp] theorem State.handBack_rs : (s.handBack x b r).rs = s.rs := by
  unfold State.handBack; dsimp only
  (repeat' split) <;> simp
@[simp] theorem State.handBack_pt : (s.handBack x b r).pt = s.pt := by
  unfold State.handBack; dsimp only
  (repeat' split) <;> simp
@[simp] theorem State.handBack_pmon : (s.handBack x b r).pmon = s.pmon := by
  unfold State.handBack; dsimp only
  (repeat' split) <;> simp
@[simp] theorem State.handBack_je : (s.handBack x b r).je = s.je := by
  unfold State.handBack; dsimp only
  (repeat' split) <;> simp
@[simp] theorem State.handBack_au : (s.handBack x b r).au = s.au := by
  unfold State.handBack; dsimp only
  (repeat' split) <;> simp
@[simp] theorem State.handBack_dev : (s.handBack x b r).dev = s.dev := by
  unfold State.handBack; dsimp only
  (repeat' split) <;> simp
@[simp] theorem State.handBack_pending : (s.handBack x b r).pending = s.pending := by
  unfold State.handBack; dsimp only
  (repeat' split) <;> simp

end

/-! ### State.grantLane changes only lanes, su, cu -/

section
variable (s : State) (n : Fin 4) (a : Nat)

@[simp] theorem State.grantLane_mp : (s.grantLane n a).mp = s.mp := by unfold State.grantLane; (repeat' split) <;> simp
@[simp] theorem State.grantLane_rs : (s.grantLane n a).rs = s.rs := by unfold State.grantLane; (repeat' split) <;> simp
@[simp] theorem State.grantLane_pt : (s.grantLane n a).pt = s.pt := by unfold State.grantLane; (repeat' split) <;> simp
@[simp] theorem State.grantLane_pmon : (s.grantLane n a).pmon = s.pmon := by unfold State.grantLane; (repeat' split) <;> simp
@[simp] theorem State.grantLane_je : (s.grantLane n a).je = s.je := by unfold State.grantLane; (repeat' split) <;> simp
@[simp] theorem State.grantLane_au : (s.grantLane n a).au = s.au := by unfold State.grantLane; (repeat' split) <;> simp
@[simp] theorem State.grantLane_dev : (s.grantLane n a).dev = s.dev := by unfold State.grantLane; (repeat' split) <;> simp
@[simp] theorem State.grantLane_pending : (s.grantLane n a).pending = s.pending := by unfold State.grantLane; (repeat' split) <;> simp

end

/-! ### State.lookupClaim changes only rs, su, lanes, cu -/

section
variable (s : State) (k : Lookup)

@[simp] theorem State.lookupClaim_mp : (s.lookupClaim k).mp = s.mp := by
  unfold State.lookupClaim; dsimp only
  (repeat' split) <;> simp
@[simp] theorem State.lookupClaim_pt : (s.lookupClaim k).pt = s.pt := by
  unfold State.lookupClaim; dsimp only
  (repeat' split) <;> simp
@[simp] theorem State.lookupClaim_pmon : (s.lookupClaim k).pmon = s.pmon := by
  unfold State.lookupClaim; dsimp only
  (repeat' split) <;> simp
@[simp] theorem State.lookupClaim_je : (s.lookupClaim k).je = s.je := by
  unfold State.lookupClaim; dsimp only
  (repeat' split) <;> simp
@[simp] theorem State.lookupClaim_au : (s.lookupClaim k).au = s.au := by
  unfold State.lookupClaim; dsimp only
  (repeat' split) <;> simp
@[simp] theorem State.lookupClaim_dev : (s.lookupClaim k).dev = s.dev := by
  unfold State.lookupClaim; dsimp only
  (repeat' split) <;> simp
@[simp] theorem State.lookupClaim_pending : (s.lookupClaim k).pending = s.pending := by
  unfold State.lookupClaim; dsimp only
  (repeat' split) <;> simp

end

/-! ### State.finishResolution changes only pt, pmon -/

section
variable (s : State) (m : PortMonitor)

@[simp] theorem State.finishResolution_mp : (s.finishResolution m).mp = s.mp := rfl
@[simp] theorem State.finishResolution_cu : (s.finishResolution m).cu = s.cu := rfl
@[simp] theorem State.finishResolution_rs : (s.finishResolution m).rs = s.rs := rfl
@[simp] theorem State.finishResolution_lanes : (s.finishResolution m).lanes = s.lanes := rfl
@[simp] theorem State.finishResolution_su : (s.finishResolution m).su = s.su := rfl
@[simp] theorem State.finishResolution_je : (s.finishResolution m).je = s.je := rfl
@[simp] theorem State.finishResolution_au : (s.finishResolution m).au = s.au := rfl
@[simp] theorem State.finishResolution_dev : (s.finishResolution m).dev = s.dev := rfl
@[simp] theorem State.finishResolution_pending : (s.finishResolution m).pending = s.pending := rfl

end

/-! ### State.resolution changes only pt, pmon, su, lanes, cu -/

section
variable (s : State) (c : Source) (k : Ask) (len : Nat) (t : Target) (g : BitVec 16) (d : DropVerdict)

@[simp] theorem State.resolution_mp : (s.resolution c k len t g d).mp = s.mp := by unfold State.resolution; dsimp only; split <;> simp
@[simp] theorem State.resolution_rs : (s.resolution c k len t g d).rs = s.rs := by unfold State.resolution; dsimp only; split <;> simp
@[simp] theorem State.resolution_je : (s.resolution c k len t g d).je = s.je := by unfold State.resolution; dsimp only; split <;> simp
@[simp] theorem State.resolution_au : (s.resolution c k len t g d).au = s.au := by unfold State.resolution; dsimp only; split <;> simp
@[simp] theorem State.resolution_dev : (s.resolution c k len t g d).dev = s.dev := by unfold State.resolution; dsimp only; split <;> simp
@[simp] theorem State.resolution_pending : (s.resolution c k len t g d).pending = s.pending := by unfold State.resolution; dsimp only; split <;> simp

end

/-! ### State.setSlot changes only je -/

section
variable (s : State) (n : Fin 4) (x : Slot)

@[simp] theorem State.setSlot_mp : (s.setSlot n x).mp = s.mp := rfl
@[simp] theorem State.setSlot_cu : (s.setSlot n x).cu = s.cu := rfl
@[simp] theorem State.setSlot_rs : (s.setSlot n x).rs = s.rs := rfl
@[simp] theorem State.setSlot_pt : (s.setSlot n x).pt = s.pt := rfl
@[simp] theorem State.setSlot_pmon : (s.setSlot n x).pmon = s.pmon := rfl
@[simp] theorem State.setSlot_lanes : (s.setSlot n x).lanes = s.lanes := rfl
@[simp] theorem State.setSlot_su : (s.setSlot n x).su = s.su := rfl
@[simp] theorem State.setSlot_au : (s.setSlot n x).au = s.au := rfl
@[simp] theorem State.setSlot_dev : (s.setSlot n x).dev = s.dev := rfl
@[simp] theorem State.setSlot_pending : (s.setSlot n x).pending = s.pending := rfl

end

/-! ### State.presentStep changes only je, pt -/

section
variable (s : State) (b : Bool)

@[simp] theorem State.presentStep_mp : (s.presentStep b).mp = s.mp := by unfold State.presentStep; (repeat' split) <;> simp
@[simp] theorem State.presentStep_cu : (s.presentStep b).cu = s.cu := by unfold State.presentStep; (repeat' split) <;> simp
@[simp] theorem State.presentStep_rs : (s.presentStep b).rs = s.rs := by unfold State.presentStep; (repeat' split) <;> simp
@[simp] theorem State.presentStep_pmon : (s.presentStep b).pmon = s.pmon := by unfold State.presentStep; (repeat' split) <;> simp
@[simp] theorem State.presentStep_lanes : (s.presentStep b).lanes = s.lanes := by unfold State.presentStep; (repeat' split) <;> simp
@[simp] theorem State.presentStep_su : (s.presentStep b).su = s.su := by unfold State.presentStep; (repeat' split) <;> simp
@[simp] theorem State.presentStep_au : (s.presentStep b).au = s.au := by unfold State.presentStep; (repeat' split) <;> simp
@[simp] theorem State.presentStep_dev : (s.presentStep b).dev = s.dev := by unfold State.presentStep; (repeat' split) <;> simp
@[simp] theorem State.presentStep_pending : (s.presentStep b).pending = s.pending := by unfold State.presentStep; (repeat' split) <;> simp

end

/-! ### State.endSlot changes only je, au -/

section
variable (s : State) (n : Fin 4)

@[simp] theorem State.endSlot_mp : (s.endSlot n).mp = s.mp := by unfold State.endSlot; (repeat' split) <;> simp
@[simp] theorem State.endSlot_cu : (s.endSlot n).cu = s.cu := by unfold State.endSlot; (repeat' split) <;> simp
@[simp] theorem State.endSlot_rs : (s.endSlot n).rs = s.rs := by unfold State.endSlot; (repeat' split) <;> simp
@[simp] theorem State.endSlot_pt : (s.endSlot n).pt = s.pt := by unfold State.endSlot; (repeat' split) <;> simp
@[simp] theorem State.endSlot_pmon : (s.endSlot n).pmon = s.pmon := by unfold State.endSlot; (repeat' split) <;> simp
@[simp] theorem State.endSlot_lanes : (s.endSlot n).lanes = s.lanes := by unfold State.endSlot; (repeat' split) <;> simp
@[simp] theorem State.endSlot_su : (s.endSlot n).su = s.su := by unfold State.endSlot; (repeat' split) <;> simp
@[simp] theorem State.endSlot_dev : (s.endSlot n).dev = s.dev := by unfold State.endSlot; (repeat' split) <;> simp
@[simp] theorem State.endSlot_pending : (s.endSlot n).pending = s.pending := by unfold State.endSlot; (repeat' split) <;> simp

end

/-! ### State.beginEnding changes only je, au, pt -/

section
variable (s : State) (n : Fin 4)

@[simp] theorem State.beginEnding_mp : (s.beginEnding n).mp = s.mp := by unfold State.beginEnding; (repeat' split) <;> simp
@[simp] theorem State.beginEnding_cu : (s.beginEnding n).cu = s.cu := by unfold State.beginEnding; (repeat' split) <;> simp
@[simp] theorem State.beginEnding_rs : (s.beginEnding n).rs = s.rs := by unfold State.beginEnding; (repeat' split) <;> simp
@[simp] theorem State.beginEnding_pmon : (s.beginEnding n).pmon = s.pmon := by unfold State.beginEnding; (repeat' split) <;> simp
@[simp] theorem State.beginEnding_lanes : (s.beginEnding n).lanes = s.lanes := by unfold State.beginEnding; (repeat' split) <;> simp
@[simp] theorem State.beginEnding_su : (s.beginEnding n).su = s.su := by unfold State.beginEnding; (repeat' split) <;> simp
@[simp] theorem State.beginEnding_dev : (s.beginEnding n).dev = s.dev := by unfold State.beginEnding; (repeat' split) <;> simp
@[simp] theorem State.beginEnding_pending : (s.beginEnding n).pending = s.pending := by unfold State.beginEnding; (repeat' split) <;> simp

end

/-! ### State.settleCancel changes only cu -/

section
variable (s : State)

@[simp] theorem State.settleCancel_mp : (s.settleCancel).mp = s.mp := by unfold State.settleCancel; split <;> simp
@[simp] theorem State.settleCancel_rs : (s.settleCancel).rs = s.rs := by unfold State.settleCancel; split <;> simp
@[simp] theorem State.settleCancel_pt : (s.settleCancel).pt = s.pt := by unfold State.settleCancel; split <;> simp
@[simp] theorem State.settleCancel_pmon : (s.settleCancel).pmon = s.pmon := by unfold State.settleCancel; split <;> simp
@[simp] theorem State.settleCancel_lanes : (s.settleCancel).lanes = s.lanes := by unfold State.settleCancel; split <;> simp
@[simp] theorem State.settleCancel_su : (s.settleCancel).su = s.su := by unfold State.settleCancel; split <;> simp
@[simp] theorem State.settleCancel_je : (s.settleCancel).je = s.je := by unfold State.settleCancel; split <;> simp
@[simp] theorem State.settleCancel_au : (s.settleCancel).au = s.au := by unfold State.settleCancel; split <;> simp
@[simp] theorem State.settleCancel_dev : (s.settleCancel).dev = s.dev := by unfold State.settleCancel; split <;> simp
@[simp] theorem State.settleCancel_pending : (s.settleCancel).pending = s.pending := by unfold State.settleCancel; split <;> simp

end

/-! ### State.finishStep changes only je, au, pt, cu -/

section
variable (s : State) (n : Fin 4) (j : Job)

@[simp] theorem State.finishStep_mp : (s.finishStep n j).mp = s.mp := by simp [State.finishStep]
@[simp] theorem State.finishStep_rs : (s.finishStep n j).rs = s.rs := by simp [State.finishStep]
@[simp] theorem State.finishStep_pmon : (s.finishStep n j).pmon = s.pmon := by simp [State.finishStep]
@[simp] theorem State.finishStep_lanes : (s.finishStep n j).lanes = s.lanes := by simp [State.finishStep]
@[simp] theorem State.finishStep_su : (s.finishStep n j).su = s.su := by simp [State.finishStep]
@[simp] theorem State.finishStep_dev : (s.finishStep n j).dev = s.dev := by simp [State.finishStep]
@[simp] theorem State.finishStep_pending : (s.finishStep n j).pending = s.pending := by simp [State.finishStep]

end

/-! ### State.applyAction changes only rs, pt, au -/

section
variable (s : State) (a : Action) (r : Route)

@[simp] theorem State.applyAction_mp : (s.applyAction a r).mp = s.mp := by unfold State.applyAction; (repeat' split) <;> simp
@[simp] theorem State.applyAction_cu : (s.applyAction a r).cu = s.cu := by unfold State.applyAction; (repeat' split) <;> simp
@[simp] theorem State.applyAction_pmon : (s.applyAction a r).pmon = s.pmon := by unfold State.applyAction; (repeat' split) <;> simp
@[simp] theorem State.applyAction_lanes : (s.applyAction a r).lanes = s.lanes := by unfold State.applyAction; (repeat' split) <;> simp
@[simp] theorem State.applyAction_su : (s.applyAction a r).su = s.su := by unfold State.applyAction; (repeat' split) <;> simp
@[simp] theorem State.applyAction_je : (s.applyAction a r).je = s.je := by unfold State.applyAction; (repeat' split) <;> simp
@[simp] theorem State.applyAction_dev : (s.applyAction a r).dev = s.dev := by unfold State.applyAction; (repeat' split) <;> simp
@[simp] theorem State.applyAction_pending : (s.applyAction a r).pending = s.pending := by unfold State.applyAction; (repeat' split) <;> simp

end

/-! ### State.survey changes only rs, pt, au -/

section
variable (s : State) (j : Job) (f : Filter) (a : Action)

@[simp] theorem State.survey_mp : (s.survey j f a).1.mp = s.mp := by
  unfold State.survey; dsimp only
  (repeat' split) <;> simp
@[simp] theorem State.survey_cu : (s.survey j f a).1.cu = s.cu := by
  unfold State.survey; dsimp only
  (repeat' split) <;> simp
@[simp] theorem State.survey_pmon : (s.survey j f a).1.pmon = s.pmon := by
  unfold State.survey; dsimp only
  (repeat' split) <;> simp
@[simp] theorem State.survey_lanes : (s.survey j f a).1.lanes = s.lanes := by
  unfold State.survey; dsimp only
  (repeat' split) <;> simp
@[simp] theorem State.survey_su : (s.survey j f a).1.su = s.su := by
  unfold State.survey; dsimp only
  (repeat' split) <;> simp
@[simp] theorem State.survey_je : (s.survey j f a).1.je = s.je := by
  unfold State.survey; dsimp only
  (repeat' split) <;> simp
@[simp] theorem State.survey_dev : (s.survey j f a).1.dev = s.dev := by
  unfold State.survey; dsimp only
  (repeat' split) <;> simp
@[simp] theorem State.survey_pending : (s.survey j f a).1.pending = s.pending := by
  unfold State.survey; dsimp only
  (repeat' split) <;> simp

end

/-! ### State.makeStep changes only rs, pt, au -/

section
variable (s : State) (j : Job) (f : Filter) (a : Action)

@[simp] theorem State.makeStep_mp : (s.makeStep j f a).1.mp = s.mp := by
  unfold State.makeStep; dsimp only
  (repeat' split) <;> simp
@[simp] theorem State.makeStep_cu : (s.makeStep j f a).1.cu = s.cu := by
  unfold State.makeStep; dsimp only
  (repeat' split) <;> simp
@[simp] theorem State.makeStep_pmon : (s.makeStep j f a).1.pmon = s.pmon := by
  unfold State.makeStep; dsimp only
  (repeat' split) <;> simp
@[simp] theorem State.makeStep_lanes : (s.makeStep j f a).1.lanes = s.lanes := by
  unfold State.makeStep; dsimp only
  (repeat' split) <;> simp
@[simp] theorem State.makeStep_su : (s.makeStep j f a).1.su = s.su := by
  unfold State.makeStep; dsimp only
  (repeat' split) <;> simp
@[simp] theorem State.makeStep_je : (s.makeStep j f a).1.je = s.je := by
  unfold State.makeStep; dsimp only
  (repeat' split) <;> simp
@[simp] theorem State.makeStep_dev : (s.makeStep j f a).1.dev = s.dev := by
  unfold State.makeStep; dsimp only
  (repeat' split) <;> simp
@[simp] theorem State.makeStep_pending : (s.makeStep j f a).1.pending = s.pending := by
  unfold State.makeStep; dsimp only
  (repeat' split) <;> simp

end

/-! ### State.stepMade changes only je, au, pt, cu -/

section
variable (s : State) (n : Fin 4) (j : Job) (k : Option Job)

@[simp] theorem State.stepMade_mp : (s.stepMade n j k).mp = s.mp := by unfold State.stepMade; split <;> simp
@[simp] theorem State.stepMade_rs : (s.stepMade n j k).rs = s.rs := by unfold State.stepMade; split <;> simp
@[simp] theorem State.stepMade_pmon : (s.stepMade n j k).pmon = s.pmon := by unfold State.stepMade; split <;> simp
@[simp] theorem State.stepMade_lanes : (s.stepMade n j k).lanes = s.lanes := by unfold State.stepMade; split <;> simp
@[simp] theorem State.stepMade_su : (s.stepMade n j k).su = s.su := by unfold State.stepMade; split <;> simp
@[simp] theorem State.stepMade_dev : (s.stepMade n j k).dev = s.dev := by unfold State.stepMade; split <;> simp
@[simp] theorem State.stepMade_pending : (s.stepMade n j k).pending = s.pending := by unfold State.stepMade; split <;> simp

end

/-! ### State.droppedMade changes only je -/

section
variable (s : State) (k : Option Job)

@[simp] theorem State.droppedMade_mp : (s.droppedMade k).mp = s.mp := by unfold State.droppedMade; split <;> simp
@[simp] theorem State.droppedMade_cu : (s.droppedMade k).cu = s.cu := by unfold State.droppedMade; split <;> simp
@[simp] theorem State.droppedMade_rs : (s.droppedMade k).rs = s.rs := by unfold State.droppedMade; split <;> simp
@[simp] theorem State.droppedMade_pt : (s.droppedMade k).pt = s.pt := by unfold State.droppedMade; split <;> simp
@[simp] theorem State.droppedMade_pmon : (s.droppedMade k).pmon = s.pmon := by unfold State.droppedMade; split <;> simp
@[simp] theorem State.droppedMade_lanes : (s.droppedMade k).lanes = s.lanes := by unfold State.droppedMade; split <;> simp
@[simp] theorem State.droppedMade_su : (s.droppedMade k).su = s.su := by unfold State.droppedMade; split <;> simp
@[simp] theorem State.droppedMade_au : (s.droppedMade k).au = s.au := by unfold State.droppedMade; split <;> simp
@[simp] theorem State.droppedMade_dev : (s.droppedMade k).dev = s.dev := by unfold State.droppedMade; split <;> simp
@[simp] theorem State.droppedMade_pending : (s.droppedMade k).pending = s.pending := by unfold State.droppedMade; split <;> simp

end

/-! ### State.withdrawStep changes only je, rs, pt -/

section
variable (s : State) (n : Fin 4)

@[simp] theorem State.withdrawStep_mp : (s.withdrawStep n).mp = s.mp := by unfold State.withdrawStep; (repeat' split) <;> simp
@[simp] theorem State.withdrawStep_cu : (s.withdrawStep n).cu = s.cu := by unfold State.withdrawStep; (repeat' split) <;> simp
@[simp] theorem State.withdrawStep_pmon : (s.withdrawStep n).pmon = s.pmon := by unfold State.withdrawStep; (repeat' split) <;> simp
@[simp] theorem State.withdrawStep_lanes : (s.withdrawStep n).lanes = s.lanes := by unfold State.withdrawStep; (repeat' split) <;> simp
@[simp] theorem State.withdrawStep_su : (s.withdrawStep n).su = s.su := by unfold State.withdrawStep; (repeat' split) <;> simp
@[simp] theorem State.withdrawStep_au : (s.withdrawStep n).au = s.au := by unfold State.withdrawStep; (repeat' split) <;> simp
@[simp] theorem State.withdrawStep_dev : (s.withdrawStep n).dev = s.dev := by unfold State.withdrawStep; (repeat' split) <;> simp
@[simp] theorem State.withdrawStep_pending : (s.withdrawStep n).pending = s.pending := by unfold State.withdrawStep; (repeat' split) <;> simp

end

/-! ### State.decideCancelled changes only je -/

section
variable (s : State) (n : Fin 4)

@[simp] theorem State.decideCancelled_mp : (s.decideCancelled n).mp = s.mp := by unfold State.decideCancelled; split <;> simp
@[simp] theorem State.decideCancelled_cu : (s.decideCancelled n).cu = s.cu := by unfold State.decideCancelled; split <;> simp
@[simp] theorem State.decideCancelled_rs : (s.decideCancelled n).rs = s.rs := by unfold State.decideCancelled; split <;> simp
@[simp] theorem State.decideCancelled_pt : (s.decideCancelled n).pt = s.pt := by unfold State.decideCancelled; split <;> simp
@[simp] theorem State.decideCancelled_pmon : (s.decideCancelled n).pmon = s.pmon := by unfold State.decideCancelled; split <;> simp
@[simp] theorem State.decideCancelled_lanes : (s.decideCancelled n).lanes = s.lanes := by unfold State.decideCancelled; split <;> simp
@[simp] theorem State.decideCancelled_su : (s.decideCancelled n).su = s.su := by unfold State.decideCancelled; split <;> simp
@[simp] theorem State.decideCancelled_au : (s.decideCancelled n).au = s.au := by unfold State.decideCancelled; split <;> simp
@[simp] theorem State.decideCancelled_dev : (s.decideCancelled n).dev = s.dev := by unfold State.decideCancelled; split <;> simp
@[simp] theorem State.decideCancelled_pending : (s.decideCancelled n).pending = s.pending := by unfold State.decideCancelled; split <;> simp

end

/-! ### State.freeSlot changes only je -/

section
variable (s : State) (r : Record)

@[simp] theorem State.freeSlot_mp : (s.freeSlot r).mp = s.mp := by unfold State.freeSlot; split <;> simp
@[simp] theorem State.freeSlot_cu : (s.freeSlot r).cu = s.cu := by unfold State.freeSlot; split <;> simp
@[simp] theorem State.freeSlot_rs : (s.freeSlot r).rs = s.rs := by unfold State.freeSlot; split <;> simp
@[simp] theorem State.freeSlot_pt : (s.freeSlot r).pt = s.pt := by unfold State.freeSlot; split <;> simp
@[simp] theorem State.freeSlot_pmon : (s.freeSlot r).pmon = s.pmon := by unfold State.freeSlot; split <;> simp
@[simp] theorem State.freeSlot_lanes : (s.freeSlot r).lanes = s.lanes := by unfold State.freeSlot; split <;> simp
@[simp] theorem State.freeSlot_su : (s.freeSlot r).su = s.su := by unfold State.freeSlot; split <;> simp
@[simp] theorem State.freeSlot_au : (s.freeSlot r).au = s.au := by unfold State.freeSlot; split <;> simp
@[simp] theorem State.freeSlot_dev : (s.freeSlot r).dev = s.dev := by unfold State.freeSlot; split <;> simp
@[simp] theorem State.freeSlot_pending : (s.freeSlot r).pending = s.pending := by unfold State.freeSlot; split <;> simp

end

/-! ### State.handOver changes only mp, cu -/

section
variable (s : State) (ws : List Word)

@[simp] theorem State.handOver_rs : (s.handOver ws).rs = s.rs := rfl
@[simp] theorem State.handOver_pt : (s.handOver ws).pt = s.pt := rfl
@[simp] theorem State.handOver_pmon : (s.handOver ws).pmon = s.pmon := rfl
@[simp] theorem State.handOver_lanes : (s.handOver ws).lanes = s.lanes := rfl
@[simp] theorem State.handOver_su : (s.handOver ws).su = s.su := rfl
@[simp] theorem State.handOver_je : (s.handOver ws).je = s.je := rfl
@[simp] theorem State.handOver_au : (s.handOver ws).au = s.au := rfl
@[simp] theorem State.handOver_dev : (s.handOver ws).dev = s.dev := rfl
@[simp] theorem State.handOver_pending : (s.handOver ws).pending = s.pending := rfl

end

/-! ### State.completeCommand changes only mp, cu -/

section
variable (s : State) (ws : List Word) (cs : List Nat)

@[simp] theorem State.completeCommand_rs : (s.completeCommand ws cs).rs = s.rs := by unfold State.completeCommand; split <;> simp
@[simp] theorem State.completeCommand_pt : (s.completeCommand ws cs).pt = s.pt := by unfold State.completeCommand; split <;> simp
@[simp] theorem State.completeCommand_pmon : (s.completeCommand ws cs).pmon = s.pmon := by unfold State.completeCommand; split <;> simp
@[simp] theorem State.completeCommand_lanes : (s.completeCommand ws cs).lanes = s.lanes := by unfold State.completeCommand; split <;> simp
@[simp] theorem State.completeCommand_su : (s.completeCommand ws cs).su = s.su := by unfold State.completeCommand; split <;> simp
@[simp] theorem State.completeCommand_je : (s.completeCommand ws cs).je = s.je := by unfold State.completeCommand; split <;> simp
@[simp] theorem State.completeCommand_au : (s.completeCommand ws cs).au = s.au := by unfold State.completeCommand; split <;> simp
@[simp] theorem State.completeCommand_dev : (s.completeCommand ws cs).dev = s.dev := by unfold State.completeCommand; split <;> simp
@[simp] theorem State.completeCommand_pending : (s.completeCommand ws cs).pending = s.pending := by unfold State.completeCommand; split <;> simp

end

/-! ### State.takeFirstWord changes only mp, cu -/

section
variable (s : State) (w : Word)

@[simp] theorem State.takeFirstWord_rs : (s.takeFirstWord w).rs = s.rs := by unfold State.takeFirstWord; (repeat' split) <;> simp
@[simp] theorem State.takeFirstWord_pt : (s.takeFirstWord w).pt = s.pt := by unfold State.takeFirstWord; (repeat' split) <;> simp
@[simp] theorem State.takeFirstWord_pmon : (s.takeFirstWord w).pmon = s.pmon := by unfold State.takeFirstWord; (repeat' split) <;> simp
@[simp] theorem State.takeFirstWord_lanes : (s.takeFirstWord w).lanes = s.lanes := by unfold State.takeFirstWord; (repeat' split) <;> simp
@[simp] theorem State.takeFirstWord_su : (s.takeFirstWord w).su = s.su := by unfold State.takeFirstWord; (repeat' split) <;> simp
@[simp] theorem State.takeFirstWord_je : (s.takeFirstWord w).je = s.je := by unfold State.takeFirstWord; (repeat' split) <;> simp
@[simp] theorem State.takeFirstWord_au : (s.takeFirstWord w).au = s.au := by unfold State.takeFirstWord; (repeat' split) <;> simp
@[simp] theorem State.takeFirstWord_dev : (s.takeFirstWord w).dev = s.dev := by unfold State.takeFirstWord; (repeat' split) <;> simp
@[simp] theorem State.takeFirstWord_pending : (s.takeFirstWord w).pending = s.pending := by unfold State.takeFirstWord; (repeat' split) <;> simp

end

/-! ### State.takeParameter changes only mp, cu -/

section
variable (s : State) (w : Word)

@[simp] theorem State.takeParameter_rs : (s.takeParameter w).rs = s.rs := by unfold State.takeParameter; dsimp only; split <;> simp
@[simp] theorem State.takeParameter_pt : (s.takeParameter w).pt = s.pt := by unfold State.takeParameter; dsimp only; split <;> simp
@[simp] theorem State.takeParameter_pmon : (s.takeParameter w).pmon = s.pmon := by unfold State.takeParameter; dsimp only; split <;> simp
@[simp] theorem State.takeParameter_lanes : (s.takeParameter w).lanes = s.lanes := by unfold State.takeParameter; dsimp only; split <;> simp
@[simp] theorem State.takeParameter_su : (s.takeParameter w).su = s.su := by unfold State.takeParameter; dsimp only; split <;> simp
@[simp] theorem State.takeParameter_je : (s.takeParameter w).je = s.je := by unfold State.takeParameter; dsimp only; split <;> simp
@[simp] theorem State.takeParameter_au : (s.takeParameter w).au = s.au := by unfold State.takeParameter; dsimp only; split <;> simp
@[simp] theorem State.takeParameter_dev : (s.takeParameter w).dev = s.dev := by unfold State.takeParameter; dsimp only; split <;> simp
@[simp] theorem State.takeParameter_pending : (s.takeParameter w).pending = s.pending := by unfold State.takeParameter; dsimp only; split <;> simp

end

/-! ### State.writeWatermarks changes only rs, au -/

section
variable (s : State) (x : Option (Nat × Nat))

@[simp] theorem State.writeWatermarks_mp : (s.writeWatermarks x).mp = s.mp := by unfold State.writeWatermarks; split <;> simp
@[simp] theorem State.writeWatermarks_cu : (s.writeWatermarks x).cu = s.cu := by unfold State.writeWatermarks; split <;> simp
@[simp] theorem State.writeWatermarks_pt : (s.writeWatermarks x).pt = s.pt := by unfold State.writeWatermarks; split <;> simp
@[simp] theorem State.writeWatermarks_pmon : (s.writeWatermarks x).pmon = s.pmon := by unfold State.writeWatermarks; split <;> simp
@[simp] theorem State.writeWatermarks_lanes : (s.writeWatermarks x).lanes = s.lanes := by unfold State.writeWatermarks; split <;> simp
@[simp] theorem State.writeWatermarks_su : (s.writeWatermarks x).su = s.su := by unfold State.writeWatermarks; split <;> simp
@[simp] theorem State.writeWatermarks_je : (s.writeWatermarks x).je = s.je := by unfold State.writeWatermarks; split <;> simp
@[simp] theorem State.writeWatermarks_dev : (s.writeWatermarks x).dev = s.dev := by unfold State.writeWatermarks; split <;> simp
@[simp] theorem State.writeWatermarks_pending : (s.writeWatermarks x).pending = s.pending := by unfold State.writeWatermarks; split <;> simp

end

/-! ### State.writeHoldDown changes only pmon -/

section
variable (s : State) (x : Option Nat)

@[simp] theorem State.writeHoldDown_mp : (s.writeHoldDown x).mp = s.mp := by unfold State.writeHoldDown; split <;> simp
@[simp] theorem State.writeHoldDown_cu : (s.writeHoldDown x).cu = s.cu := by unfold State.writeHoldDown; split <;> simp
@[simp] theorem State.writeHoldDown_rs : (s.writeHoldDown x).rs = s.rs := by unfold State.writeHoldDown; split <;> simp
@[simp] theorem State.writeHoldDown_pt : (s.writeHoldDown x).pt = s.pt := by unfold State.writeHoldDown; split <;> simp
@[simp] theorem State.writeHoldDown_lanes : (s.writeHoldDown x).lanes = s.lanes := by unfold State.writeHoldDown; split <;> simp
@[simp] theorem State.writeHoldDown_su : (s.writeHoldDown x).su = s.su := by unfold State.writeHoldDown; split <;> simp
@[simp] theorem State.writeHoldDown_je : (s.writeHoldDown x).je = s.je := by unfold State.writeHoldDown; split <;> simp
@[simp] theorem State.writeHoldDown_au : (s.writeHoldDown x).au = s.au := by unfold State.writeHoldDown; split <;> simp
@[simp] theorem State.writeHoldDown_dev : (s.writeHoldDown x).dev = s.dev := by unfold State.writeHoldDown; split <;> simp
@[simp] theorem State.writeHoldDown_pending : (s.writeHoldDown x).pending = s.pending := by unfold State.writeHoldDown; split <;> simp

end

/-! ### State.dropClaims changes only pt, pmon -/

section
variable (s : State)

@[simp] theorem State.dropClaims_mp : (s.dropClaims).mp = s.mp := rfl
@[simp] theorem State.dropClaims_cu : (s.dropClaims).cu = s.cu := rfl
@[simp] theorem State.dropClaims_rs : (s.dropClaims).rs = s.rs := rfl
@[simp] theorem State.dropClaims_lanes : (s.dropClaims).lanes = s.lanes := rfl
@[simp] theorem State.dropClaims_su : (s.dropClaims).su = s.su := rfl
@[simp] theorem State.dropClaims_je : (s.dropClaims).je = s.je := rfl
@[simp] theorem State.dropClaims_au : (s.dropClaims).au = s.au := rfl
@[simp] theorem State.dropClaims_dev : (s.dropClaims).dev = s.dev := rfl
@[simp] theorem State.dropClaims_pending : (s.dropClaims).pending = s.pending := rfl

end

/-! ### State.withProgress changes only cu, pt, pmon -/

section
variable (s : State) (p : Progress)

@[simp] theorem State.withProgress_mp : (s.withProgress p).mp = s.mp := by unfold State.withProgress; split <;> simp
@[simp] theorem State.withProgress_rs : (s.withProgress p).rs = s.rs := by unfold State.withProgress; split <;> simp
@[simp] theorem State.withProgress_lanes : (s.withProgress p).lanes = s.lanes := by unfold State.withProgress; split <;> simp
@[simp] theorem State.withProgress_su : (s.withProgress p).su = s.su := by unfold State.withProgress; split <;> simp
@[simp] theorem State.withProgress_je : (s.withProgress p).je = s.je := by unfold State.withProgress; split <;> simp
@[simp] theorem State.withProgress_au : (s.withProgress p).au = s.au := by unfold State.withProgress; split <;> simp
@[simp] theorem State.withProgress_dev : (s.withProgress p).dev = s.dev := by unfold State.withProgress; split <;> simp
@[simp] theorem State.withProgress_pending : (s.withProgress p).pending = s.pending := by unfold State.withProgress; split <;> simp

end

/-! ### State.progressTo changes only cu, pt, pmon -/

section
variable (s : State) (ws : List Word) (p : Progress)

@[simp] theorem State.progressTo_mp : (s.progressTo ws p).mp = s.mp := by unfold State.progressTo; split <;> simp
@[simp] theorem State.progressTo_rs : (s.progressTo ws p).rs = s.rs := by unfold State.progressTo; split <;> simp
@[simp] theorem State.progressTo_lanes : (s.progressTo ws p).lanes = s.lanes := by unfold State.progressTo; split <;> simp
@[simp] theorem State.progressTo_su : (s.progressTo ws p).su = s.su := by unfold State.progressTo; split <;> simp
@[simp] theorem State.progressTo_je : (s.progressTo ws p).je = s.je := by unfold State.progressTo; split <;> simp
@[simp] theorem State.progressTo_au : (s.progressTo ws p).au = s.au := by unfold State.progressTo; split <;> simp
@[simp] theorem State.progressTo_dev : (s.progressTo ws p).dev = s.dev := by unfold State.progressTo; split <;> simp
@[simp] theorem State.progressTo_pending : (s.progressTo ws p).pending = s.pending := by unfold State.progressTo; split <;> simp

end

/-! ### State.await changes only cu, pt, pmon -/

section
variable (s : State) (w : Word) (ps : List Word)

@[simp] theorem State.await_mp : (s.await w ps).mp = s.mp := rfl
@[simp] theorem State.await_rs : (s.await w ps).rs = s.rs := rfl
@[simp] theorem State.await_lanes : (s.await w ps).lanes = s.lanes := rfl
@[simp] theorem State.await_su : (s.await w ps).su = s.su := rfl
@[simp] theorem State.await_je : (s.await w ps).je = s.je := rfl
@[simp] theorem State.await_au : (s.await w ps).au = s.au := rfl
@[simp] theorem State.await_dev : (s.await w ps).dev = s.dev := rfl
@[simp] theorem State.await_pending : (s.await w ps).pending = s.pending := rfl

end

/-! ### State.answered changes only cu, pt, pmon -/

section
variable (s : State) (c : ResultCode) (ws : List Word)

@[simp] theorem State.answered_mp : (s.answered c ws).mp = s.mp := by simp [State.answered]
@[simp] theorem State.answered_rs : (s.answered c ws).rs = s.rs := by simp [State.answered]
@[simp] theorem State.answered_lanes : (s.answered c ws).lanes = s.lanes := by simp [State.answered]
@[simp] theorem State.answered_su : (s.answered c ws).su = s.su := by simp [State.answered]
@[simp] theorem State.answered_je : (s.answered c ws).je = s.je := by simp [State.answered]
@[simp] theorem State.answered_au : (s.answered c ws).au = s.au := by simp [State.answered]
@[simp] theorem State.answered_dev : (s.answered c ws).dev = s.dev := by simp [State.answered]
@[simp] theorem State.answered_pending : (s.answered c ws).pending = s.pending := by simp [State.answered]

end

/-! ### State.lastClaim changes only cu, pt, rs, pmon, au -/

section
variable (s : State)

@[simp] theorem State.lastClaim_mp : (s.lastClaim).mp = s.mp := by unfold State.lastClaim; (repeat' split) <;> simp
@[simp] theorem State.lastClaim_lanes : (s.lastClaim).lanes = s.lanes := by unfold State.lastClaim; (repeat' split) <;> simp
@[simp] theorem State.lastClaim_su : (s.lastClaim).su = s.su := by unfold State.lastClaim; (repeat' split) <;> simp
@[simp] theorem State.lastClaim_je : (s.lastClaim).je = s.je := by unfold State.lastClaim; (repeat' split) <;> simp
@[simp] theorem State.lastClaim_dev : (s.lastClaim).dev = s.dev := by unfold State.lastClaim; (repeat' split) <;> simp
@[simp] theorem State.lastClaim_pending : (s.lastClaim).pending = s.pending := by unfold State.lastClaim; (repeat' split) <;> simp

end

/-! ### State.startClearing changes only mp, dev -/

section
variable (s : State)

@[simp] theorem State.startClearing_cu : (s.startClearing).cu = s.cu := by unfold State.startClearing; split <;> simp
@[simp] theorem State.startClearing_rs : (s.startClearing).rs = s.rs := by unfold State.startClearing; split <;> simp
@[simp] theorem State.startClearing_pt : (s.startClearing).pt = s.pt := by unfold State.startClearing; split <;> simp
@[simp] theorem State.startClearing_pmon : (s.startClearing).pmon = s.pmon := by unfold State.startClearing; split <;> simp
@[simp] theorem State.startClearing_lanes : (s.startClearing).lanes = s.lanes := by unfold State.startClearing; split <;> simp
@[simp] theorem State.startClearing_su : (s.startClearing).su = s.su := by unfold State.startClearing; split <;> simp
@[simp] theorem State.startClearing_je : (s.startClearing).je = s.je := by unfold State.startClearing; split <;> simp
@[simp] theorem State.startClearing_au : (s.startClearing).au = s.au := by unfold State.startClearing; split <;> simp
@[simp] theorem State.startClearing_pending : (s.startClearing).pending = s.pending := by unfold State.startClearing; split <;> simp

end

/-! ### State.takeStep changes only rs, pt, je -/

section
variable (s : State)

@[simp] theorem State.takeStep_mp : (s.takeStep).mp = s.mp := by unfold State.takeStep; dsimp only; (repeat' split) <;> simp
@[simp] theorem State.takeStep_cu : (s.takeStep).cu = s.cu := by unfold State.takeStep; dsimp only; (repeat' split) <;> simp
@[simp] theorem State.takeStep_pmon : (s.takeStep).pmon = s.pmon := by unfold State.takeStep; dsimp only; (repeat' split) <;> simp
@[simp] theorem State.takeStep_lanes : (s.takeStep).lanes = s.lanes := by unfold State.takeStep; dsimp only; (repeat' split) <;> simp
@[simp] theorem State.takeStep_su : (s.takeStep).su = s.su := by unfold State.takeStep; dsimp only; (repeat' split) <;> simp
@[simp] theorem State.takeStep_au : (s.takeStep).au = s.au := by unfold State.takeStep; dsimp only; (repeat' split) <;> simp
@[simp] theorem State.takeStep_dev : (s.takeStep).dev = s.dev := by unfold State.takeStep; dsimp only; (repeat' split) <;> simp
@[simp] theorem State.takeStep_pending : (s.takeStep).pending = s.pending := by unfold State.takeStep; dsimp only; (repeat' split) <;> simp

end

/-! ### State.takeVisit changes only pt -/

section
variable (s : State)

@[simp] theorem State.takeVisit_mp : (s.takeVisit).mp = s.mp := by unfold State.takeVisit; (repeat' split) <;> simp
@[simp] theorem State.takeVisit_cu : (s.takeVisit).cu = s.cu := by unfold State.takeVisit; (repeat' split) <;> simp
@[simp] theorem State.takeVisit_rs : (s.takeVisit).rs = s.rs := by unfold State.takeVisit; (repeat' split) <;> simp
@[simp] theorem State.takeVisit_pmon : (s.takeVisit).pmon = s.pmon := by unfold State.takeVisit; (repeat' split) <;> simp
@[simp] theorem State.takeVisit_lanes : (s.takeVisit).lanes = s.lanes := by unfold State.takeVisit; (repeat' split) <;> simp
@[simp] theorem State.takeVisit_su : (s.takeVisit).su = s.su := by unfold State.takeVisit; (repeat' split) <;> simp
@[simp] theorem State.takeVisit_je : (s.takeVisit).je = s.je := by unfold State.takeVisit; (repeat' split) <;> simp
@[simp] theorem State.takeVisit_au : (s.takeVisit).au = s.au := by unfold State.takeVisit; (repeat' split) <;> simp
@[simp] theorem State.takeVisit_dev : (s.takeVisit).dev = s.dev := by unfold State.takeVisit; (repeat' split) <;> simp
@[simp] theorem State.takeVisit_pending : (s.takeVisit).pending = s.pending := by unfold State.takeVisit; (repeat' split) <;> simp

end

/-! ### State.takeRead changes only cu, pt, pmon -/

section
variable (s : State)

@[simp] theorem State.takeRead_mp : (s.takeRead).mp = s.mp := by unfold State.takeRead; (repeat' split) <;> simp
@[simp] theorem State.takeRead_rs : (s.takeRead).rs = s.rs := by unfold State.takeRead; (repeat' split) <;> simp
@[simp] theorem State.takeRead_lanes : (s.takeRead).lanes = s.lanes := by unfold State.takeRead; (repeat' split) <;> simp
@[simp] theorem State.takeRead_su : (s.takeRead).su = s.su := by unfold State.takeRead; (repeat' split) <;> simp
@[simp] theorem State.takeRead_je : (s.takeRead).je = s.je := by unfold State.takeRead; (repeat' split) <;> simp
@[simp] theorem State.takeRead_au : (s.takeRead).au = s.au := by unfold State.takeRead; (repeat' split) <;> simp
@[simp] theorem State.takeRead_dev : (s.takeRead).dev = s.dev := by unfold State.takeRead; (repeat' split) <;> simp
@[simp] theorem State.takeRead_pending : (s.takeRead).pending = s.pending := by unfold State.takeRead; (repeat' split) <;> simp

end

/-! ### State.tick changes only cu, rs, pt, je, pmon -/

section
variable (s : State)

@[simp] theorem State.tick_mp : (s.tick).mp = s.mp := by simp [State.tick]
@[simp] theorem State.tick_lanes : (s.tick).lanes = s.lanes := by simp [State.tick]
@[simp] theorem State.tick_su : (s.tick).su = s.su := by simp [State.tick]
@[simp] theorem State.tick_au : (s.tick).au = s.au := by simp [State.tick]
@[simp] theorem State.tick_dev : (s.tick).dev = s.dev := by simp [State.tick]
@[simp] theorem State.tick_pending : (s.tick).pending = s.pending := by simp [State.tick]

end

end Sys2Proof.Machine
end

