-- ==== Sys2Proof/Laws/PathTable.lean ====
section
/-! SUPPORT. The tables of the Path Table: what a record reads as after a record is changed, inserted or removed, and
the line of waiting claims. -/

namespace Sys2Proof.Machine

/-! ### Lists in ascending rank -/

theorem insertBy_perm {α : Type} (rank : α → Nat) (x : α) (l : List α) : (insertBy rank x l).Perm (x :: l) := by
  induction l with
  | nil => exact .refl _
  | cons y ys ih =>
    simp only [insertBy]
    split
    · exact .refl _
    · exact (ih.cons y).trans (.swap x y ys)

theorem mem_insertBy {α : Type} {rank : α → Nat} {x y : α} {l : List α} : y ∈ insertBy rank x l ↔ y = x ∨ y ∈ l := by
  simp [(insertBy_perm rank x l).mem_iff]

theorem insertBy_sorted {α : Type} {rank : α → Nat} {x : α} {l : List α}
    (h : l.Pairwise fun a b => rank a < rank b) (hx : ∀ y ∈ l, rank y ≠ rank x) :
    (insertBy rank x l).Pairwise fun a b => rank a < rank b := by
  induction l with
  | nil => exact .cons (by simp) .nil
  | cons y ys ih =>
    have ⟨hy, hs⟩ := List.pairwise_cons.mp h
    simp only [insertBy]
    split
    · rename_i hlt
      refine .cons (fun z hz => ?_) h
      rcases List.mem_cons.mp hz with rfl | hz
      · exact hlt
      · exact Nat.lt_trans hlt (hy z hz)
    · refine .cons (fun z hz => ?_) (ih hs fun z hz => hx z (List.mem_cons_of_mem _ hz))
      rcases mem_insertBy.mp hz with rfl | hz
      · have := hx y List.mem_cons_self
        omega
      · exact hy z hz

/-! ### Lookup by ID -/

theorem PathTable.exit?_some {pt : PathTable} {i : Nat} {e : Exit} (h : pt.exit? i = some e) :
    e ∈ pt.exits ∧ e.id = i :=
  ⟨List.mem_of_find?_eq_some h, by simpa using List.find?_some h⟩

theorem PathTable.set?_some {pt : PathTable} {i : Nat} {p : PathSet} (h : pt.set? i = some p) :
    p ∈ pt.sets ∧ p.id = i :=
  ⟨List.mem_of_find?_eq_some h, by simpa using List.find?_some h⟩

/-- A change of the records that keeps their IDs is what the lookup shows. -/
theorem find?_map_id {α : Type} (ident : α → Nat) (f : α → α) (hf : ∀ x, ident (f x) = ident x) (l : List α) (i : Nat) :
    (l.map f).find? (fun x => ident x == i) = (l.find? fun x => ident x == i).map f := by
  induction l with
  | nil => rfl
  | cons x xs ih =>
    simp only [List.map_cons, List.find?_cons, hf]
    split
    · rfl
    · exact ih

theorem PathTable.updExit_exit? (pt : PathTable) (i j : Nat) {f : Exit → Exit} (hf : ∀ e, (f e).id = e.id) :
    (pt.updExit i f).exit? j = (pt.exit? j).map fun e => if j = i then f e else e := by
  unfold updExit exit?
  rw [find?_map_id Exit.id _ (by intro x; split <;> simp [hf])]
  cases h : pt.exits.find? fun e => e.id == j with
  | none => rfl
  | some e =>
    have : e.id = j := by simpa using List.find?_some h
    simp [this]

theorem PathTable.updSet_set? (pt : PathTable) (i j : Nat) {f : PathSet → PathSet} (hf : ∀ p, (f p).id = p.id) :
    (pt.updSet i f).set? j = (pt.set? j).map fun p => if j = i then f p else p := by
  unfold updSet set?
  rw [find?_map_id PathSet.id _ (by intro x; split <;> simp [hf])]
  cases h : pt.sets.find? fun p => p.id == j with
  | none => rfl
  | some p =>
    have : p.id = j := by simpa using List.find?_some h
    simp [this]

@[simp] theorem PathTable.updExit_sets (pt : PathTable) (i : Nat) (f : Exit → Exit) : (pt.updExit i f).sets = pt.sets := rfl
@[simp] theorem PathTable.updExit_waiting (pt : PathTable) (i : Nat) (f : Exit → Exit) :
    (pt.updExit i f).waiting = pt.waiting := rfl
@[simp] theorem PathTable.updExit_taken (pt : PathTable) (i : Nat) (f : Exit → Exit) :
    (pt.updExit i f).taken = pt.taken := rfl
@[simp] theorem PathTable.updExit_set? (pt : PathTable) (i j : Nat) (f : Exit → Exit) :
    (pt.updExit i f).set? j = pt.set? j := rfl
@[simp] theorem PathTable.updSet_exits (pt : PathTable) (i : Nat) (f : PathSet → PathSet) :
    (pt.updSet i f).exits = pt.exits := rfl
@[simp] theorem PathTable.updSet_waiting (pt : PathTable) (i : Nat) (f : PathSet → PathSet) :
    (pt.updSet i f).waiting = pt.waiting := rfl
@[simp] theorem PathTable.updSet_taken (pt : PathTable) (i : Nat) (f : PathSet → PathSet) :
    (pt.updSet i f).taken = pt.taken := rfl
@[simp] theorem PathTable.updSet_exit? (pt : PathTable) (i j : Nat) (f : PathSet → PathSet) :
    (pt.updSet i f).exit? j = pt.exit? j := rfl

/-- A record put into its place is found under its own ID, and the others as before. -/
theorem find?_insertBy {α : Type} (ident : α → Nat) (x : α) {l : List α} (hx : ∀ y ∈ l, ident y ≠ ident x) (j : Nat) :
    (insertBy ident x l).find? (fun y => ident y == j)
      = if j = ident x then some x else l.find? fun y => ident y == j := by
  induction l with
  | nil =>
    by_cases h : ident x = j
    · simp [insertBy, h]
    · simp [insertBy, h, Ne.symm h]
  | cons y ys ih =>
    have hy := hx y List.mem_cons_self
    have ih := ih fun z hz => hx z (List.mem_cons_of_mem _ hz)
    simp only [insertBy]
    split
    · by_cases h : ident x = j
      · simp [h]
      · simp [h, Ne.symm h]
    · by_cases h : ident y = j
      · have : ¬ j = ident x := by omega
        simp [h, this]
      · simp [h, ih]

/-- A record taken out is found no more, and the others as before. -/
theorem find?_filter_ne {α : Type} (ident : α → Nat) (l : List α) (i j : Nat) :
    (l.filter fun y => ident y != i).find? (fun y => ident y == j)
      = if j = i then none else l.find? fun y => ident y == j := by
  induction l with
  | nil => simp
  | cons y ys ih =>
    by_cases h : ident y = i
    · by_cases hj : j = i
      · simp [hj] at ih ⊢
      · have : ¬ i = j := fun h => hj h.symm
        simp [h, hj, this] at ih ⊢
        exact ih
    · by_cases hj : j = i
      · subst hj
        simp [h] at ih ⊢
      · by_cases hy : ident y = j
        · simp [hj, hy]
        · simp [h, hj, hy] at ih ⊢
          exact ih

/-! ### References -/

theorem PathTable.takeRoute_cases (pt : PathTable) (t : Target) :
    (pt.stands t = false ∧ pt.takeRoute t = none) ∨
    (pt.stands t = true ∧ pt.takeRoute t = some (pt.countRoute (· + 1) t)) := by
  unfold takeRoute
  cases pt.stands t <;> simp

theorem PathTable.takePin_cases (pt : PathTable) (t : Target) :
    (pt.stands t = false ∧ pt.takePin t = none) ∨
    (pt.stands t = true ∧ pt.takePin t = some (pt.countPin (· + 1) t)) := by
  unfold takePin
  cases pt.stands t <;> simp

@[simp] theorem PathTable.countRoute_waiting (pt : PathTable) (f : Nat → Nat) (t : Target) :
    (pt.countRoute f t).waiting = pt.waiting := by cases t <;> rfl
@[simp] theorem PathTable.countRoute_taken (pt : PathTable) (f : Nat → Nat) (t : Target) :
    (pt.countRoute f t).taken = pt.taken := by cases t <;> rfl
@[simp] theorem PathTable.countPin_waiting (pt : PathTable) (f : Nat → Nat) (t : Target) :
    (pt.countPin f t).waiting = pt.waiting := by cases t <;> rfl
@[simp] theorem PathTable.countPin_taken (pt : PathTable) (f : Nat → Nat) (t : Target) :
    (pt.countPin f t).taken = pt.taken := by cases t <;> rfl

/-! ### Waiting claims -/

section
variable (pt : PathTable) (c : PtClaim) (b : Bool)

@[simp] theorem PathTable.present_exits : (pt.present c b).exits = pt.exits := rfl
@[simp] theorem PathTable.present_sets : (pt.present c b).sets = pt.sets := rfl
@[simp] theorem PathTable.present_taken : (pt.present c b).taken = pt.taken := rfl
@[simp] theorem PathTable.offer_exits : (pt.offer c).exits = pt.exits := rfl
@[simp] theorem PathTable.offer_sets : (pt.offer c).sets = pt.sets := rfl
@[simp] theorem PathTable.offer_taken : (pt.offer c).taken = pt.taken := rfl
@[simp] theorem PathTable.withdraw_exits : (pt.withdraw c).exits = pt.exits := rfl
@[simp] theorem PathTable.withdraw_sets : (pt.withdraw c).sets = pt.sets := rfl
@[simp] theorem PathTable.withdraw_taken : (pt.withdraw c).taken = pt.taken := rfl

end

theorem joinLast_flatten {α : Type} (c : α) (l : ClaimLine α) : (joinLast c l).flatten = l.flatten ++ [c] := by
  induction l with
  | nil => rfl
  | cons g gs ih =>
    cases gs with
    | nil => simp [joinLast]
    | cons h hs => simp only [joinLast, List.flatten_cons, ih, List.append_assoc]

section
variable {α : Type} [DecidableEq α]

/-- A claim is first in line exactly when it stands in the first group. -/
theorem firstInLine_iff {c : α} {l : ClaimLine α} : firstInLine c l = true ↔ ∃ g rest, l = g :: rest ∧ c ∈ g := by
  cases l <;> simp [firstInLine]

/-- A claim that is offered stands in the line once more only if it did not stand there, and then at its end. -/
theorem offerLine_flatten (c : α) (l : ClaimLine α) :
    (offerLine c l).flatten = if inLine c l then l.flatten else l.flatten ++ [c] := by
  unfold offerLine
  split <;> simp [joinLine]

/-- The claims that stay keep their order. -/
theorem keepLine_flatten {β : Type} (stay : β → Bool) (l : ClaimLine β) : (keepLine stay l).flatten = l.flatten.filter stay := by
  unfold keepLine
  induction l with
  | nil => rfl
  | cons g gs ih =>
    simp only [List.map_cons, List.flatten_cons, List.filter_append, ← ih]
    cases g.filter stay <;> simp

/-- A claim that has left is nowhere in the line, and the others keep their order. -/
theorem leaveLine_flatten (c : α) (l : ClaimLine α) : (leaveLine c l).flatten = l.flatten.filter (· != c) :=
  keepLine_flatten _ l

@[simp] theorem leaveLine_nil (c : α) : leaveLine c [] = [] := rfl

end

/-- However it is presented, a claim goes to the end of the line. -/
theorem PathTable.present_flatten (pt : PathTable) (c : PtClaim) (together : Bool) :
    (pt.present c together).waiting.flatten = pt.waiting.flatten ++ [c] := by
  cases together
  · simp [present, joinLine]
  · simp [present, joinLast_flatten]

/-! ### The claim in progress -/

section
variable (pt : PathTable)

@[simp] theorem PathTable.finishCommand_exits : pt.finishCommand.exits = pt.exits := by
  unfold PathTable.finishCommand; split <;> rfl
@[simp] theorem PathTable.finishCommand_sets : pt.finishCommand.sets = pt.sets := by
  unfold PathTable.finishCommand; split <;> rfl
@[simp] theorem PathTable.finishCommand_waiting : pt.finishCommand.waiting = pt.waiting := by
  unfold PathTable.finishCommand; split <;> rfl

end

/-- A claim in progress that is no command's goes on when a command is finished; a command's is in progress no more. -/
theorem PathTable.finishCommand_cases (pt : PathTable) :
    (∃ l, pt.taken = some (.command l) ∧ pt.finishCommand = { pt with taken := none }) ∨
    ((∀ l, pt.taken ≠ some (.command l)) ∧ pt.finishCommand = pt) := by
  unfold PathTable.finishCommand PathTable.commandTaken
  rcases pt with ⟨e, s, w, t⟩
  rcases t with _ | _ | _ | l <;> simp

end Sys2Proof.Machine
end

