-- ==== Sys2Proof/Laws/Blocks.lean ====
section
/-! SUPPORT. One record of a block's table read after another is written (lanes, ports, slots, domains), and what the
blocks' shared operations can do. -/

namespace Sys2Proof.Machine

/-! ### Read after write -/

@[simp] theorem State.updLane_lane_self (s : State) (n : Fin 4) (f : Lane → Lane) : (s.updLane n f).lane n = f (s.lane n) := by
  simp [State.updLane, State.lane, State.setLanes]

theorem State.updLane_lane_ne (s : State) {n m : Fin 4} (f : Lane → Lane) (h : m ≠ n) :
    (s.updLane n f).lane m = s.lane m := by
  have : n.val ≠ m.val := fun e => h (Fin.ext e.symm)
  simp [State.updLane, State.lane, State.setLanes, this]

theorem State.updLane_lane (s : State) (n m : Fin 4) (f : Lane → Lane) :
    (s.updLane n f).lane m = if m = n then f (s.lane n) else s.lane m := by
  split
  · subst m; simp
  · exact s.updLane_lane_ne f ‹_›

@[simp] theorem State.updLane_id (s : State) (n : Fin 4) : (s.updLane n fun l => l) = s := by
  simp [State.updLane, State.lane, State.setLanes]

@[simp] theorem State.updLane_updLane (s : State) (n : Fin 4) (f g : Lane → Lane) :
    (s.updLane n f).updLane n g = s.updLane n fun l => g (f l) := by
  simp [State.updLane, State.lane, State.setLanes]

@[simp] theorem PortMonitor.setPort_self (m : PortMonitor) (p : Fin 64) (x : Port) : (m.setPort p x).ports[p] = x := by
  simp [PortMonitor.setPort]

theorem PortMonitor.setPort_ne (m : PortMonitor) {p q : Fin 64} (x : Port) (h : q ≠ p) :
    (m.setPort p x).ports[q] = m.ports[q] := by
  have : p.val ≠ q.val := fun e => h (Fin.ext e.symm)
  simp [PortMonitor.setPort, this]

@[simp] theorem State.setSlot_slot_self (s : State) (n : Fin 4) (x : Slot) : (s.setSlot n x).slot n = x := by
  simp [State.setSlot, State.slot, State.setJe]

theorem State.setSlot_slot_ne (s : State) {n m : Fin 4} (x : Slot) (h : m ≠ n) : (s.setSlot n x).slot m = s.slot m := by
  have : n.val ≠ m.val := fun e => h (Fin.ext e.symm)
  simp [State.setSlot, State.slot, State.setJe, this]

@[simp] theorem RouteStore.updDomain_self (rs : RouteStore) (d : Fin 16) (f : Domain → Domain) :
    (rs.updDomain d f).domain d = f (rs.domain d) := by
  simp [RouteStore.updDomain, RouteStore.domain]

theorem RouteStore.updDomain_ne (rs : RouteStore) {d c : Fin 16} (f : Domain → Domain) (h : c ≠ d) :
    (rs.updDomain d f).domain c = rs.domain c := by
  have : d.val ≠ c.val := fun e => h (Fin.ext e.symm)
  simp [RouteStore.updDomain, RouteStore.domain, this]

/-! ### Postings -/

/-- A posting changes the attention list or nothing. -/
theorem State.post_cases (s : State) (p : Posting) : (s.restarting = true ∧ s.post p = s) ∨
    (s.restarting = false ∧ s.post p = s.setAu (s.au.take p)) := by
  unfold State.post
  cases s.restarting <;> simp

@[simp] theorem AttentionUnit.take_masks (au : AttentionUnit) (p : Posting) :
    (au.take p).maskPort = au.maskPort ∧ (au.take p).maskLane = au.maskLane ∧ (au.take p).maskSpace = au.maskSpace := by
  unfold AttentionUnit.take
  split
  · simp
  · split <;> simp

/-- A record updated in place keeps its source. -/
theorem Posting.update_source (p : Posting) (r : Record) : (p.update r).source = r.source := by
  cases p <;> cases r <;> rfl

/-- Only a record of the posting's own source is updated, and never a JOB record. -/
theorem Posting.updates_iff (p : Posting) (r : Record) :
    p.updates r = true ↔ r.source = p.record.source ∧ ∀ n, r.source ≠ .job n := by
  cases p <;> cases r <;> simp [Posting.updates, Posting.record, Record.source] <;> exact eq_comm

/-! ### Lanes -/

/-- The transmitter starts a CREDIT, a RESULT, or nothing. -/
theorem Lane.startNext_cases (l : Lane) :
    (l.link = .up ∧ l.sending = none ∧ 0 < l.owed ∧ l.startNext = { l with sending := some (.credit l.owed), owed := 0 }) ∨
    (l.link = .up ∧ l.sending = none ∧ l.owed = 0 ∧ l.headDone = true ∧ l.startNext = { l with sending := some .result }) ∨
    l.startNext = l := by
  unfold Lane.startNext
  split
  · rename_i h
    simp only [Bool.and_eq_true, beq_iff_eq, Option.isNone_iff_eq_none] at h
    split
    · exact .inl ⟨h.1, h.2, ‹_›, rfl⟩
    · split
      · exact .inr (.inl ⟨h.1, h.2, by omega, ‹_›, rfl⟩)
      · exact .inr (.inr rfl)
  · exact .inr (.inr rfl)

@[simp] theorem Lane.startNext_link (l : Lane) : l.startNext.link = l.link := by
  rcases l.startNext_cases with ⟨_, _, _, h⟩ | ⟨_, _, _, _, h⟩ | h <;> rw [h]
@[simp] theorem Lane.startNext_queue (l : Lane) : l.startNext.queue = l.queue := by
  rcases l.startNext_cases with ⟨_, _, _, h⟩ | ⟨_, _, _, _, h⟩ | h <;> rw [h]
@[simp] theorem Lane.startNext_held (l : Lane) : l.startNext.held = l.held := by
  rcases l.startNext_cases with ⟨_, _, _, h⟩ | ⟨_, _, _, _, h⟩ | h <;> rw [h]
@[simp] theorem Lane.startNext_reportsPending (l : Lane) : l.startNext.reportsPending = l.reportsPending := by
  rcases l.startNext_cases with ⟨_, _, _, h⟩ | ⟨_, _, _, _, h⟩ | h <;> rw [h]

/-- Starting a message moves credits between owed and in transit, and makes none. -/
theorem Lane.startNext_credits (l : Lane) : l.startNext.credits = l.credits := by
  rcases l.startNext_cases with ⟨_, h, _, e⟩ | ⟨_, h, _, _, e⟩ | e <;> rw [e]
  · simp only [Lane.credits, Lane.transit, h]; omega
  · simp only [Lane.credits, Lane.transit, h]

/-! ### Ports -/

/-- A port's record after a claim: the effective state R71 gives, and a fresh pass exactly at an effective change. -/
theorem Port.recompute_cases (x : Port) :
    (effectiveOf x.forced x.phase = x.live ∧ x.recompute = x) ∨
    (effectiveOf x.forced x.phase ≠ x.live ∧
      x.recompute = { x with live := effectiveOf x.forced x.phase, pass := .running none }) := by
  simp only [Port.recompute]
  split
  · exact .inl ⟨eq_of_beq ‹_›, rfl⟩
  · rename_i h
    exact .inr ⟨fun e => h (by rw [e]; exact beq_self_eq_true _), rfl⟩

theorem Port.recompute_live (x : Port) : x.recompute.live = effectiveOf x.recompute.forced x.recompute.phase := by
  rcases x.recompute_cases with ⟨h, e⟩ | ⟨_, e⟩ <;> rw [e]
  exact h.symm

section
variable (m : PortMonitor) (p : Fin 64) (x : Port) (t : Nat)

@[simp] theorem PortMonitor.writePort_ports : (m.writePort p x).ports = (m.setPort p x).ports := by
  unfold PortMonitor.writePort; split <;> rfl
@[simp] theorem PortMonitor.writePort_holdDown : (m.writePort p x).holdDown = m.holdDown := by
  unfold PortMonitor.writePort; split <;> rfl
@[simp] theorem PortMonitor.writePort_now : (m.writePort p x).now = m.now := by
  unfold PortMonitor.writePort; split <;> rfl
@[simp] theorem PortMonitor.advance_ports : (m.advance t).ports = m.ports := rfl
@[simp] theorem PortMonitor.advance_holdDown : (m.advance t).holdDown = m.holdDown := rfl
@[simp] theorem PortMonitor.popReport_ports (r : PortReport) : (m.popReport r).ports = m.ports := by
  unfold PortMonitor.popReport; split <;> rfl

end

/-- The clock brings expiries and nothing else into the line: the reports there are the same. -/
theorem PortMonitor.advance_reports (m : PortMonitor) (t : Nat) : (m.advance t).reports = m.reports := by
  unfold PortMonitor.reports PortMonitor.advance
  dsimp only
  split
  · rfl
  · simp [List.filterMap_map, Function.comp_def, PortClaim.report?]

/-- A pass that starts afresh marks the TAKEN visit of its port, or presents its first claim in the waiting one's place. -/
theorem PathTable.restartPass_cases (pt : PathTable) (p : Fin 64) :
    (∃ v, pt.taken = some (.visit v) ∧ v.port = p ∧
      pt.restartPass p = { pt with taken := some (.visit { v with stale := true }) }) ∨
    ((∀ v, pt.taken = some (.visit v) → v.port ≠ p) ∧
      pt.restartPass p = (pt.withdraw (.visit p)).present (.visit p)) := by
  unfold PathTable.restartPass PathTable.visiting
  rcases h : pt.taken with _ | v | _ | l
  · exact .inr ⟨by simp, rfl⟩
  · by_cases hp : v.port = p
    · exact .inl ⟨v, rfl, hp, by simp [hp]⟩
    · refine .inr ⟨?_, by simp [hp]⟩
      rintro w ⟨⟩
      exact hp
  · exact .inr ⟨by simp, rfl⟩
  · exact .inr ⟨by simp, rfl⟩

/-! ### Reads of ports -/

section
variable (m : PortMonitor) (c : PortClaim)

@[simp] theorem PortMonitor.withdraw_ports : (m.withdraw c).ports = m.ports := rfl
@[simp] theorem PortMonitor.withdraw_holdDown : (m.withdraw c).holdDown = m.holdDown := rfl
@[simp] theorem PortMonitor.withdraw_now : (m.withdraw c).now = m.now := rfl
@[simp] theorem PortMonitor.offer_ports : (m.offer c).ports = m.ports := rfl
@[simp] theorem PortMonitor.offer_holdDown : (m.offer c).holdDown = m.holdDown := rfl
@[simp] theorem PortMonitor.offer_now : (m.offer c).now = m.now := rfl

end

/-- Reading ports changes nothing of PMON but its line. -/
@[simp] theorem PortMonitor.readPorts_ports (ps : List (Fin 64)) (m : PortMonitor) :
    (PortMonitor.readPorts ps m).1.ports = m.ports ∧ (PortMonitor.readPorts ps m).1.holdDown = m.holdDown ∧
      (PortMonitor.readPorts ps m).1.now = m.now := by
  induction ps generalizing m with
  | nil => simp [PortMonitor.readPorts]
  | cons p ps ih =>
    unfold PortMonitor.readPorts
    split
    · exact ih (m.withdraw .read)
    · simp [PortMonitor.offer]

/-- The values read are the effective states of the first of the ports, in their order. -/
theorem PortMonitor.readPorts_reads (ps : List (Fin 64)) (m : PortMonitor) :
    (PortMonitor.readPorts ps m).2 <+: ps.map fun p => m.ports[p].live := by
  induction ps generalizing m with
  | nil => simp [PortMonitor.readPorts]
  | cons p ps ih =>
    unfold PortMonitor.readPorts
    split
    · simpa using ih (m.withdraw .read)
    · simp

/-- No report comes into the line or leaves it by a read. -/
theorem PortMonitor.readPorts_reports (ps : List (Fin 64)) (m : PortMonitor) :
    (PortMonitor.readPorts ps m).1.reports = m.reports := by
  have hw : ∀ m : PortMonitor, (m.withdraw .read).reports = m.reports := fun m => by
    simp only [PortMonitor.reports, PortMonitor.withdraw, leaveLine_flatten]
    induction m.waiting.flatten with
    | nil => rfl
    | cons c cs ih => cases c <;> simpa [List.filterMap_cons, PortClaim.report?] using ih
  induction ps generalizing m with
  | nil => simp [PortMonitor.readPorts]
  | cons p ps ih =>
    unfold PortMonitor.readPorts
    split
    · exact (ih _).trans (hw m)
    · simp only [PortMonitor.reports, PortMonitor.offer, offerLine_flatten]
      split <;> simp [PortClaim.report?]

/-- While no claim waits at the port table every port is read. -/
theorem PortMonitor.readPorts_free {m : PortMonitor} (h : m.waiting = []) (ps : List (Fin 64)) :
    PortMonitor.readPorts ps m = (m, ps.map fun p => m.ports[p].live) := by
  have hm : m.withdraw .read = m := by
    obtain ⟨a, b, l, c⟩ := m
    cases h
    rfl
  induction ps with
  | nil => rfl
  | cons p ps ih =>
    simp [PortMonitor.readPorts, PortMonitor.admits, PortMonitor.takeable, PortMonitor.offer, offerLine, inLine, joinLine,
      firstInLine, h, hm, ih]

/-- A read that another claim goes before is presented, and nothing is read. -/
theorem PortMonitor.readPorts_blocked {m : PortMonitor} (h : m.admits .read = false) (p : Fin 64) (ps : List (Fin 64)) :
    PortMonitor.readPorts (p :: ps) m = (m.offer .read, []) := by
  simp [PortMonitor.readPorts, h]

/-- The Path Table takes nothing, or the first visit claim in line, with the cursor of its pass. -/
theorem State.takeVisit_cases (s : State) : s.takeVisit = s ∨
    ∃ p cursor, s.pt.nextVisit? = some p ∧ (s.port p).pass = .running cursor ∧ s.serving = true ∧ s.ptFree = true ∧
      s.takeVisit = s.setPt { s.pt.withdraw (.visit p) with taken := some (.visit ⟨p, cursor, false⟩) } := by
  unfold State.takeVisit
  split
  · exact .inl rfl
  · rename_i p hp
    split
    · exact .inl rfl
    · rename_i cursor hc
      split
      · rename_i h
        simp only [Bool.and_eq_true] at h
        exact .inr ⟨p, cursor, hp, hc, h.1, h.2, rfl⟩
      · exact .inl rfl

/-! ### Jobs -/

theorem mem_fours (n : Fin 4) : n ∈ fours := by revert n; decide

/-- The slot whose claim for a step is WAITING or TAKEN is the one the JE finds, when it is the only one. -/
theorem JobEngine.stepping?_eq {je : JobEngine} {n : Fin 4} (hn : je.slots[n].stepping = true)
    (ho : ∀ m, m ≠ n → je.slots[m].stepping = false) : je.stepping? = some n := by
  unfold JobEngine.stepping?
  cases h : fours.find? fun n => je.slots[n].stepping with
  | none =>
    rw [List.find?_eq_none] at h
    exact absurd hn (h n (mem_fours n))
  | some m =>
    have hm := List.find?_some h
    by_cases e : m = n
    · rw [e]
    · have := ho m e
      simp_all
/-- The JE chooses nothing, or makes one eligible slot WAITING. -/
theorem State.presentStep_cases (s : State) (together : Bool) : s.presentStep together = s ∨
    ∃ n j, s.slot n = .running j ∧ j.outcome = none ∧ j.step = .none ∧ s.working = true ∧ s.je.stepping? = none ∧
      let t := s.setJe { s.je with slots := s.je.slots.set n (.running { j with step := .waiting }) n.isLt, last := n }
      (∃ f a, j.spec = .survey f a ∧ s.presentStep together = t) ∨
      (∃ x y, j.spec = .refill x y ∧ s.presentStep together = t.setPt (s.pt.present (.refill n) together)) := by
  unfold State.presentStep
  split
  · exact .inl rfl
  · rename_i h
    simp only [Bool.or_eq_true, Bool.not_eq_true', not_or, Bool.not_eq_false, Option.isSome_iff_ne_none, ne_eq,
      Decidable.not_not] at h
    split
    · exact .inl rfl
    · rename_i n hn
      have he := List.find?_some hn
      split
      · rename_i j hj
        right
        rw [hj] at he
        simp only [Slot.eligible, Bool.and_eq_true, Option.isNone_iff_eq_none, beq_iff_eq] at he
        refine ⟨n, j, hj, he.1, he.2, h.1, h.2, ?_⟩
        cases hs : j.spec with
        | survey f a => exact .inl ⟨f, a, rfl, rfl⟩
        | refill x y => exact .inr ⟨x, y, rfl, rfl⟩
      · exact .inl rfl

/-- A slot's ending waits for its pin claim, is done with its JOB record, or has nothing to do. -/
theorem State.beginEnding_cases (s : State) (n : Fin 4) :
    (∃ j o t, s.slot n = .running j ∧ j.outcome = some o ∧ j.step = .none ∧ j.spec.pin = some t ∧
      s.beginEnding n = s.setPt (s.pt.present (.pin n))) ∨
    (∃ j o, s.slot n = .running j ∧ j.outcome = some o ∧ j.step = .none ∧ j.spec.pin = none ∧
      s.beginEnding n = (s.setSlot n (.ended j)).post (.job n j.spec.kind o j.visited j.matched j.acted)) ∨
    s.beginEnding n = s := by
  unfold State.beginEnding
  cases hs : s.slot n with
  | idle => right; right; simp [Slot.needsPin]
  | ended j => right; right; simp [Slot.needsPin]
  | running j =>
    by_cases hstep : j.step = .none
    · cases ho : j.outcome with
      | none => right; right; simp [Slot.needsPin, ho, hstep, State.endSlot, hs]
      | some o =>
        cases hp : j.spec.pin with
        | none =>
          right; left
          exact ⟨j, o, rfl, ho, hstep, hp, by simp [Slot.needsPin, ho, hstep, hp, State.endSlot, hs]⟩
        | some t =>
          left
          exact ⟨j, o, t, rfl, ho, hstep, hp, by simp [Slot.needsPin, ho, hstep, hp]⟩
    · right; right; simp [Slot.needsPin, hstep]

end Sys2Proof.Machine
end

