-- ==== Sys2Proof/Laws/Commands.lean ====
section
/-! SUPPORT. What the work phase of a host command can do: nothing, its work on the parameter words with the CU's progress
written, or the command's claims presented. -/

namespace Sys2Proof.Machine

/-- Exactly the progress of a command that is not yet applied. -/
theorem Progress.unapplied_iff {p : Progress} :
    p.unapplied = true ↔ p = .held ∨ p = .waiting ∨ p = .referring ∨ p = .restartLeft ∨ p = .restartPorts := by
  cases p <;> simp [Progress.unapplied]

/-- Nothing happens, because the CU does not hold the command; or the state is the work's, with the progress it gives; or a
block that the command claims does not take its claim, and the command's claims are presented. -/
theorem runCommand_cases (code : Nat) (body : List Word → State → Reply) (s : State) :
    runCommand code body s = s ∨
      ∃ w ps p, commandCode w = code ∧ s.cu = .busy (w :: ps) p ∧ p.unapplied = true ∧ s.dev.phase = .running ∧
        (((s.admits code ps = true ∨ checkedBeforeClaims code (body ps s).2 = true) ∧
            runCommand code body s = (body ps s).1.progressTo (w :: ps) (body ps s).2) ∨
          (s.admits code ps = false ∧ checkedBeforeClaims code (body ps s).2 = false ∧
            runCommand code body s = s.await w ps)) := by
  unfold runCommand
  split
  · rename_i w ps p h
    split
    · rename_i hc
      simp only [Bool.and_eq_true, beq_iff_eq, State.running] at hc
      refine .inr ⟨w, ps, p, hc.1.2, h, hc.1.1, hc.2, ?_⟩
      dsimp only
      split
      · exact .inl ⟨Bool.or_eq_true_iff.mp ‹_›, rfl⟩
      · have ha := ‹¬ _ = true›
        simp only [Bool.or_eq_true, not_or, Bool.not_eq_true] at ha
        exact .inr ⟨ha.1, ha.2, rfl⟩
    · exact .inl rfl
  · exact .inl rfl
  · exact .inl rfl

/-- While the CU holds a command and its claims are taken, or its checks refuse it, the step is the command's work. -/
theorem runCommand_holds {code : Nat} {ps : List Word} {s : State} (body : List Word → State → Reply)
    (h : s.holds code ps) (ha : s.admits code ps = true ∨ checkedBeforeClaims code (body ps s).2 = true) :
    ∃ w p, s.cu = .busy (w :: ps) p ∧
      runCommand code body s = (body ps s).1.progressTo (w :: ps) (body ps s).2 := by
  obtain ⟨hr, w, p, hc, hcu, hp⟩ := h
  rw [← Progress.unapplied_iff] at hp
  refine ⟨w, p, hcu, ?_⟩
  rcases ha with ha | ha <;> simp [runCommand, hcu, hc, State.running, hr, ha, hp]

/-- While the CU holds a command whose claims are not taken and which its checks do not refuse, its claims are presented and
wait. -/
theorem runCommand_waits {code : Nat} {ps : List Word} {s : State} {body : List Word → State → Reply}
    (h : s.holds code ps) (ha : s.admits code ps = false) (hc : checkedBeforeClaims code (body ps s).2 = false) :
    ∃ w p, commandCode w = code ∧ s.cu = .busy (w :: ps) p ∧ runCommand code body s = s.await w ps := by
  obtain ⟨hr, w, p, hw, hcu, hp⟩ := h
  rw [← Progress.unapplied_iff] at hp
  exact ⟨w, p, hw, hcu, by simp [runCommand, hcu, hw, State.running, hr, ha, hc, hp]⟩

/-- While the CU works on a command, the step is the command's work. -/
theorem runCommand_works {code : Nat} {ps : List Word} {s : State} (body : List Word → State → Reply)
    (h : s.works code ps) :
    ∃ w p, s.cu = .busy (w :: ps) p ∧
      runCommand code body s = (body ps s).1.progressTo (w :: ps) (body ps s).2 :=
  runCommand_holds body h.1 (.inl h.2)

/-- A property of the state that the work keeps, and that the CU's progress and the lines of its claims do not touch, is kept
by the step. -/
theorem runCommand_keeps {P : State → Prop} {code : Nat} {body : List Word → State → Reply} {s : State}
    (hs : P s) (hcu : ∀ t ws x, P t → P (t.progressTo ws x)) (hw : ∀ w ps, P (s.await w ps))
    (hb : ∀ ps, P (body ps s).1) : P (runCommand code body s) := by
  rcases runCommand_cases code body s with h | ⟨w, ps, p, -, -, -, -, ⟨-, h⟩ | ⟨-, -, h⟩⟩
  · rw [h]; exact hs
  · rw [h]; exact hcu _ _ _ (hb ps)
  · rw [h]; exact hw w ps

/-- A field that the work, the CU's progress and the lines of its claims leave alone is left alone by the step. -/
theorem runCommand_field {α : Type} {f : State → α} {code : Nat} {body : List Word → State → Reply} {s : State}
    (hcu : ∀ t ws x, f (t.progressTo ws x) = f t) (hw : ∀ w ps, f (s.await w ps) = f s)
    (hb : ∀ ps, f (body ps s).1 = f s) : f (runCommand code body s) = f s :=
  runCommand_keeps (P := fun t => f t = f s) rfl (fun t ws x h => (hcu t ws x).trans h) hw hb

@[simp] theorem refuse_fst (s : State) (c : ResultCode) : (refuse s c).1 = s := rfl
@[simp] theorem refuse_snd (s : State) (c : ResultCode) : (refuse s c).2 = .answered ⟨c, []⟩ := rfl
@[simp] theorem answerOk_fst (s : State) (ws : List Word) : (answerOk s ws).1 = s := rfl
@[simp] theorem answerOk_snd (s : State) (ws : List Word) : (answerOk s ws).2 = .answered ⟨.ok, ws⟩ := rfl

@[simp] theorem answerRoute_fst (s : State) (r : Option Route) : (answerRoute s r).1 = s := by
  cases r <;> rfl

/-- What a command naming a route by its identity can do: be refused, or its work on a checked identity. -/
theorem withIdentity_cases {α : Type} (ps : List Word) (others : Nat) (more : Identity → Option α) (s : State)
    (work : Identity → α → Reply) :
    (withIdentity ps others more s work).1 = s ∨
      ∃ i a, identityOf ps others = some i ∧ more i = some a ∧ i.keyOk = true ∧
        withIdentity ps others more s work = work i a := by
  unfold withIdentity
  split
  · exact .inl rfl
  · rename_i i hi
    split
    · exact .inl rfl
    · rename_i a ha
      split
      · rename_i hk; exact .inr ⟨i, a, hi, ha, hk, rfl⟩
      · exact .inl rfl

/-- A part of a route command that changes references can be: no such part after all; made, within a reference claim that the
Path Table takes; or left, the reference claim waiting there. -/
theorem State.withReference_cases (s : State) (refers : Bool) (work : State → Reply) :
    (refers = false ∧ s.withReference refers work = work s) ∨
    (refers = true ∧ s.ptAdmits .reference = true ∧
      s.withReference refers work = work (s.setPt (s.pt.withdraw .reference))) ∨
    (refers = true ∧ s.ptAdmits .reference = false ∧
      s.withReference refers work = (s.setPt (s.pt.offer .reference), .referring)) := by
  unfold State.withReference
  cases refers <;> cases s.ptAdmits .reference <;> simp

/-- A part of a command that reads ports can be: made, once all are read; or left, the claim in progress with what it has
read. -/
theorem State.withReads_cases (s : State) (ports : List (Fin 64)) (work : List Bool → State → Reply) :
    let r := s.pmon.readPorts (ports.drop s.pt.reads.length)
    let seen := s.pt.reads ++ r.2
    (ports.length ≤ seen.length ∧ s.withReads ports work = work seen (s.setPmon r.1)) ∨
    (seen.length < ports.length ∧ s.withReads ports work =
      ((s.setPmon r.1).setPt { s.pt.withdraw .command with taken := some (.command seen) }, .waiting)) := by
  dsimp only [State.withReads]
  split
  · exact .inr ⟨‹_›, rfl⟩
  · exact .inl ⟨Nat.le_of_not_lt ‹_›, rfl⟩

/-- The step leaves the state that the work gives, with the command at the progress that the work gives, when the work leaves
the CU to the step and the command does not wait. -/
theorem runCommand_eq {code : Nat} {ps : List Word} {s X : State} {p : Progress} {body : List Word → State → Reply}
    (h : s.works code ps) (hb : body ps s = (X, p)) (hc : X.cu = s.cu) (hp : p.waits = false := by rfl) :
    runCommand code body s = X.withProgress p := by
  obtain ⟨w, q, hcu, he⟩ := runCommand_works body h
  rw [he, hb]
  simp [State.progressTo, State.withProgress, hc, hcu, hp]

/-- A command that waits stands at its progress, with what its work has presented. -/
theorem runCommand_left {code : Nat} {ps : List Word} {s X : State} {p : Progress} {body : List Word → State → Reply}
    (h : s.works code ps) (hb : body ps s = (X, p)) (hp : p.waits = true) :
    ∃ w q, s.cu = .busy (w :: ps) q ∧ runCommand code body s = X.setCu (.busy (w :: ps) p) := by
  obtain ⟨w, q, hcu, he⟩ := runCommand_works body h
  exact ⟨w, q, hcu, by rw [he, hb]; simp [State.progressTo, hp]⟩

/-- A command that is answered in its step. -/
theorem runCommand_answered {code : Nat} {ps : List Word} {s X : State} {c : ResultCode} {ws : List Word}
    {body : List Word → State → Reply} (h : s.works code ps) (hb : body ps s = (X, .answered ⟨c, ws⟩))
    (hc : X.cu = s.cu) : runCommand code body s = X.answered c ws :=
  runCommand_eq h hb hc

/-- A command that is refused leaves every state as it was. -/
theorem runCommand_refused {code : Nat} {ps : List Word} {s : State} {c : ResultCode}
    {body : List Word → State → Reply} (h : s.works code ps) (hb : body ps s = refuse s c) :
    runCommand code body s = s.answered c [] :=
  runCommand_answered h hb rfl

/-- A command that its checks refuse before it claims any block is refused whatever is in progress there (R171). -/
theorem runCommand_checked {code : Nat} {ps : List Word} {s : State} {c : ResultCode}
    {body : List Word → State → Reply} (h : s.holds code ps) (hb : body ps s = refuse s c)
    (hc : checkedBeforeClaims code (.answered ⟨c, []⟩) = true) : runCommand code body s = s.answered c [] := by
  obtain ⟨w, p, hcu, he⟩ := runCommand_holds body h (.inr (by rw [hb]; exact hc))
  rw [he, hb]
  simp [State.progressTo, State.answered, State.withProgress, refuse, hcu, Progress.waits]

end Sys2Proof.Machine
end

