-- ==== Sys2Proof/Laws/Claims.lean ====
section
/-! SUPPORT. What a claim that reads ports or changes references can do when its block has taken it, and what RESTART can. -/

namespace Sys2Proof.Machine

/-- A visit claim that the Path Table has taken can be: at the end of its pass, finished; at a place whose read PMON takes,
finished, with the place visited and the next claim presented; or TAKEN, its read waiting. -/
theorem State.visitPass_cases (s : State) (v : Visit) :
    let pt := { s.pt.withdraw (.visit v.port) with taken := none }
    (pt.nextPlace v.port v.cursor = none ∧
      s.visitPass v = (s.setPt (if v.stale then pt.present (.visit v.port) else pt)).passTo v .idle) ∨
    ∃ place, pt.nextPlace v.port v.cursor = some place ∧
      ((s.pmon.admits .read = true ∧ s.visitPass v = ((s.setPmon (s.pmon.withdraw .read)).setPt
          ((pt.visit (s.port v.port).live place).present (.visit v.port))).passTo v (.running (some place))) ∨
        (s.pmon.admits .read = false ∧
          s.visitPass v = (s.setPt { pt with taken := some (.visit v) }).setPmon (s.pmon.offer .read))) := by
  dsimp only [State.visitPass]
  split
  · exact .inl ⟨‹_›, rfl⟩
  · rename_i place h
    refine .inr ⟨place, h, ?_⟩
    cases ha : s.pmon.admits .read
    · exact .inr ⟨rfl, rfl⟩
    · exact .inl ⟨rfl, rfl⟩

/-- A resolution claim that the Path Table has taken can be: finished, its result handed back; or TAKEN, its read of a direct
exit's port waiting. -/
theorem State.resolution_cases (s : State) (source : Source) (ask : Ask) (len : Nat) (target : Target) (tag : BitVec 16)
    (miss : DropVerdict) :
    let ports := s.pt.resolvePort target
    let r := s.pmon.readPorts ports
    (ports.length ≤ r.2.length ∧ s.resolution source ask len target tag miss = (s.finishResolution r.1).handBack source
        ask.bucket (s.pt.resolve (r.2.headD false) ask.bucket len target tag miss)) ∨
    (r.2.length < ports.length ∧ s.resolution source ask len target tag miss =
      (s.setPt { s.pt.withdraw .resolution with taken := some .resolution }).setPmon r.1) := by
  dsimp only [State.resolution]
  split
  · exact .inr ⟨‹_›, rfl⟩
  · exact .inl ⟨Nat.le_of_not_lt ‹_›, rfl⟩

/-- A SURVEY step that the Route Store has taken can be: made without a reference claim; made within one that the Path Table
takes; or left, the reference claim waiting there. -/
theorem State.makeStep_cases (s : State) (j : Job) (f : Filter) (a : Action) :
    let t := s.setRs { s.rs with fairness := 0 }
    let u := t.setPt (s.pt.withdraw .reference)
    (s.rs.stepRefers j f a = false ∧ s.makeStep j f a = ((t.survey j f a).1, some (t.survey j f a).2)) ∨
    (s.rs.stepRefers j f a = true ∧ s.ptAdmits .reference = true ∧
      s.makeStep j f a = ((u.survey j f a).1, some (u.survey j f a).2)) ∨
    (s.rs.stepRefers j f a = true ∧ s.ptAdmits .reference = false ∧
      s.makeStep j f a = (t.setPt (s.pt.offer .reference), none)) := by
  dsimp only [State.makeStep]
  cases s.rs.stepRefers j f a <;> cases s.ptAdmits .reference <;> simp

/-- An idle step leaves the CU's claim on the Path Table alone, or takes it, if it has not been, and makes one read of it. -/
theorem State.takeRead_cases (s : State) : s.takeRead = s ∨
    ∃ w ps p q rest, s.cu = .busy (w :: ps) p ∧ p.unapplied = true ∧ s.running = true ∧
      s.admits (commandCode w) ps = true ∧ s.pmon.admits .read = true ∧
      (portsRead (commandCode w) ps s.pt).drop s.pt.reads.length = q :: rest ∧
      s.takeRead = ((s.setPt { s.pt.withdraw .command with
        taken := some (.command (s.pt.reads ++ [s.pmon.ports[q].live])) }).setPmon (s.pmon.withdraw .read)).setCu
        (.busy (w :: ps) .waiting) := by
  unfold State.takeRead
  split
  · rename_i w ps p hcu
    split
    · rename_i h
      simp only [Bool.and_eq_true] at h
      split
      · exact .inl rfl
      · rename_i q rest hq
        exact .inr ⟨w, ps, p, q, rest, hcu, h.1.1.1, h.1.1.2, h.1.2, h.2, hq, rfl⟩
    · exact .inl rfl
  all_goals exact .inl rfl

/-- RESTART's row leaves the claims on the tables waiting, or its claim on the port table, or has all its parts made. -/
theorem restartWork_cases (ps : List Word) (s : State) :
    let t := s.restartUnits
    let u := t.restartTables
    ((t.rsFree && t.ptFree) = false ∧ restartWork ps s = (t, .restartLeft)) ∨
    ((t.rsFree && t.ptFree) = true ∧ u.pmon.admits .command = false ∧
      restartWork ps s = (u.setPmon (u.pmon.offer .command), .restartPorts)) ∨
    ((t.rsFree && t.ptFree) = true ∧ u.pmon.admits .command = true ∧ restartWork ps s = (u.restartPorts, .restarting)) := by
  dsimp only [restartWork]
  cases s.restartUnits.rsFree && s.restartUnits.ptFree <;>
    cases s.restartUnits.restartTables.pmon.admits .command <;> simp

/-- RESTART's parts in the units leave no job in a slot; those that it dropped are the jobs of before, and their claims in
progress and their pins are theirs still. -/
theorem State.restartUnits_jobs (s : State) : s.restartUnits.je.jobs = s.je.jobs.map Job.withdrawn := by
  simp [State.restartUnits, JobEngine.restart, JobEngine.reset, JobEngine.jobs, fours, Slot.runningJob?]

@[simp] theorem Job.withdrawn_surveyTaken (j : Job) : j.withdrawn.surveyTaken = j.surveyTaken := by
  rcases j with ⟨_ | _, _, _, _, _, _ | _ | _, _⟩ <;> rfl

@[simp] theorem Job.withdrawn_refillTaken (j : Job) : j.withdrawn.refillTaken = j.refillTaken := by
  rcases j with ⟨_ | _, _, _, _, _, _ | _ | _, _⟩ <;> rfl

@[simp] theorem Job.withdrawn_spec (j : Job) : j.withdrawn.spec = j.spec := by
  unfold Job.withdrawn
  split <;> rfl

/-- RESTART's parts in the units free no table of a claim in progress there, and hold none up. -/
@[simp] theorem State.restartUnits_rsFree (s : State) : s.restartUnits.rsFree = s.rsFree := by
  simp [State.rsFree, State.restartUnits_jobs, List.any_map, Function.comp_def]

@[simp] theorem State.restartUnits_ptFree (s : State) : s.restartUnits.ptFree = s.ptFree := by
  simp only [State.ptFree, State.restartUnits_jobs, List.any_map, Function.comp_def, Job.withdrawn_refillTaken]
  rfl

end Sys2Proof.Machine
end

