-- ==== Sys2Proof/Laws/Maps.lean ====
section
/-! SUPPORT. Bucket maps: the fill rule and the loss rule. -/

namespace Sys2Proof.Machine

/-! ### The fill rule -/

@[simp] theorem fillMap_length (ms : List Member) : (fillMap ms).length = 64 := by simp [fillMap, Config.buckets]

/-- The members recorded UP are named in the pass, once for each unit of their weight. -/
theorem mem_fillPass {ms : List Member} {e : Nat} :
    e ∈ fillPass ms ↔ ∃ m ∈ ms, m.up = true ∧ m.weight ≠ 0 ∧ m.exit = e := by
  simp only [fillPass, List.mem_flatMap, List.mem_filter, List.mem_replicate]
  constructor
  · rintro ⟨m, ⟨hm, hu⟩, hw, rfl⟩
    exact ⟨m, hm, hu, hw, rfl⟩
  · rintro ⟨m, hm, hu, hw, rfl⟩
    exact ⟨m, ⟨hm, hu⟩, hw, rfl⟩

theorem fillPass_length (ms : List Member) : (fillPass ms).length = ((ms.filter (·.up)).map (·.weight)).sum := by
  simp [fillPass, List.length_flatMap]

/-- A bucket of the fill map names a member of the pass, or is EMPTY when the pass names nobody. -/
theorem mem_fillMap {ms : List Member} {b : Option Nat} (h : b ∈ fillMap ms) :
    (∃ e ∈ fillPass ms, b = some e) ∨ (fillPass ms = [] ∧ b = none) := by
  obtain ⟨i, -, rfl⟩ := List.mem_map.mp h
  by_cases hp : fillPass ms = []
  · exact .inr ⟨hp, by simp [hp]⟩
  · have hl : i % (fillPass ms).length < (fillPass ms).length := Nat.mod_lt _ (List.length_pos_iff.mpr hp)
    exact .inl ⟨_, List.getElem_mem hl, List.getElem?_eq_getElem hl⟩

/-! ### The loss rule -/

/-- The member chosen at a loss holds the fewest buckets, and fewer than all before it. -/
theorem fewest_some {l : List (Nat × Nat)} {c : Nat × Nat} (h : fewest l = some c) :
    ∃ before later, l = before ++ c :: later ∧ (∀ x ∈ before, c.2 < x.2) ∧ ∀ x ∈ later, c.2 ≤ x.2 := by
  induction l generalizing c with
  | nil => cases h
  | cons x xs ih =>
    simp only [fewest] at h
    split at h
    · rename_i hn
      cases h
      cases xs with
      | nil => exact ⟨[], [], rfl, by simp, by simp⟩
      | cons y ys =>
        exfalso
        simp only [fewest] at hn
        split at hn
        · cases hn
        · split at hn <;> cases hn
    · rename_i d hd
      obtain ⟨before, later, rfl, hb, hl⟩ := ih hd
      split at h
      · cases h
        refine ⟨x :: before, later, rfl, fun y hy => ?_, hl⟩
        rcases List.mem_cons.mp hy with rfl | hy
        · assumption
        · exact hb y hy
      · cases h
        rename_i hlt
        refine ⟨[], before ++ d :: later, rfl, by simp, fun y hy => ?_⟩
        rcases List.mem_append.mp hy with hy | hy
        · have := hb y hy
          omega
        · rcases List.mem_cons.mp hy with rfl | hy
          · omega
          · have := hl y hy
            omega

theorem fewest_none {l : List (Nat × Nat)} : fewest l = none ↔ l = [] := by
  cases l with
  | nil => simp [fewest]
  | cons x xs =>
    simp only [fewest, reduceCtorEq, iff_false]
    split
    · simp
    · split <;> simp

@[simp] theorem reassign_length (lost : Nat) (counts : List (Nat × Nat)) (map : List (Option Nat)) :
    (reassign lost counts map).length = map.length := by
  induction map generalizing counts with
  | nil => rfl
  | cons b bs ih =>
    simp only [reassign]
    split
    · split <;> simp [ih]
    · simp [ih]

/-- A bucket after a loss: as it was when it named another, else one of the others, or EMPTY when there are none. -/
theorem mem_reassign {lost : Nat} {counts : List (Nat × Nat)} {map : List (Option Nat)} {b : Option Nat}
    (h : b ∈ reassign lost counts map) :
    (b ∈ map ∧ b ≠ some lost) ∨ (∃ c ∈ counts, b = some c.1) ∨ (counts = [] ∧ b = none) := by
  induction map generalizing counts with
  | nil => cases h
  | cons x xs ih =>
    simp only [reassign] at h
    split at h
    · split at h
      · rename_i hn
        rcases List.mem_cons.mp h with rfl | h
        · exact .inr (.inr ⟨fewest_none.mp hn, rfl⟩)
        · rcases ih h with ⟨hm, hb⟩ | hc | hc
          · exact .inl ⟨List.mem_cons_of_mem _ hm, hb⟩
          · exact .inr (.inl hc)
          · exact .inr (.inr hc)
      · rename_i c hc
        obtain ⟨before, later, rfl, -, -⟩ := fewest_some hc
        rcases List.mem_cons.mp h with rfl | h
        · exact .inr (.inl ⟨c, by simp, rfl⟩)
        · rcases ih h with ⟨hm, hb⟩ | ⟨d, hd, rfl⟩ | ⟨hn, -⟩
          · exact .inl ⟨List.mem_cons_of_mem _ hm, hb⟩
          · obtain ⟨e, he, rfl⟩ := List.mem_map.mp hd
            refine .inr (.inl ⟨e, he, ?_⟩)
            split <;> rfl
          · simp at hn
    · rename_i hx
      rcases List.mem_cons.mp h with rfl | h
      · exact .inl ⟨List.mem_cons_self, hx⟩
      · rcases ih h with ⟨hm, hb⟩ | hc | hc
        · exact .inl ⟨List.mem_cons_of_mem _ hm, hb⟩
        · exact .inr (.inl hc)
        · exact .inr (.inr hc)

/-! ### Member updates -/

/-- A member update does nothing, marks a member UP with a gain, or DOWN with a loss. -/
theorem PathSet.memberUpdate_cases (p : PathSet) (x : Nat) (up : Bool) :
    (p.memberUpdate x up = p ∧ ∀ m, p.member? x = some m → m.up = up) ∨
    (∃ m, p.member? x = some m ∧ m.up = false ∧ up = true ∧
      p.memberUpdate x up = (p.updMember x fun m => { m with up := true }).gain) ∨
    (∃ m, p.member? x = some m ∧ m.up = true ∧ up = false ∧
      p.memberUpdate x up = (p.updMember x fun m => { m with up := false }).lose x) := by
  unfold PathSet.memberUpdate
  split
  · rename_i h
    exact .inl ⟨rfl, fun m hm => by rw [h] at hm; cases hm⟩
  · rename_i m h
    split
    · rename_i hu
      exact .inl ⟨rfl, fun k hk => by rw [h] at hk; cases hk; exact hu⟩
    · rename_i hu
      cases up
      · exact .inr (.inr ⟨m, h, by simpa using hu, rfl, rfl⟩)
      · exact .inr (.inl ⟨m, h, by simpa using hu, rfl, rfl⟩)

@[simp] theorem PathSet.fill_id (p : PathSet) : p.fill.id = p.id := rfl
@[simp] theorem PathSet.lose_id (p : PathSet) (x : Nat) : (p.lose x).id = p.id := rfl
@[simp] theorem PathSet.lose_members (p : PathSet) (x : Nat) : (p.lose x).members = p.members := rfl
@[simp] theorem PathSet.gain_id (p : PathSet) : p.gain.id = p.id := by unfold PathSet.gain; split <;> rfl
@[simp] theorem PathSet.gain_members (p : PathSet) : p.gain.members = p.members := by
  unfold PathSet.gain; split <;> rfl
@[simp] theorem PathSet.updMember_id (p : PathSet) (x : Nat) (f : Member → Member) : (p.updMember x f).id = p.id := rfl

@[simp] theorem PathSet.memberUpdate_id (p : PathSet) (x : Nat) (up : Bool) : (p.memberUpdate x up).id = p.id := by
  rcases p.memberUpdate_cases x up with ⟨h, -⟩ | ⟨m, -, -, -, h⟩ | ⟨m, -, -, -, h⟩ <;> simp [h]

end Sys2Proof.Machine
end

