-- ==== Sys2Proof/Laws/Routes.lean ====
section
/-! SUPPORT. Table order and the operations of the Route Store. -/

namespace Sys2Proof.Machine

/-- Two words agree in their first `len` bits when their shifts do. -/
theorem shiftRight_eq_iff {w : Nat} (a b : BitVec w) (len : Nat) :
    a >>> (w - len) = b >>> (w - len) ↔ ∀ j, j < len → a.getMsbD j = b.getMsbD j := by
  constructor
  · intro h j hj
    by_cases hw : j < w
    · have := congrArg (fun x => x.getLsbD (w - 1 - j - (w - len))) h
      simp only [BitVec.getLsbD_ushiftRight] at this
      rw [BitVec.getMsbD_eq_getLsbD, BitVec.getMsbD_eq_getLsbD]
      have e : w - len + (w - 1 - j - (w - len)) = w - 1 - j := by omega
      rw [e] at this
      simp [hw, this]
    · simp [BitVec.getMsbD, hw]
  · intro h
    apply BitVec.eq_of_getLsbD_eq
    intro i hi
    simp only [BitVec.getLsbD_ushiftRight]
    by_cases hw : w - len + i < w
    · have := h (w - 1 - (w - len + i)) (by omega)
      rw [BitVec.getMsbD_eq_getLsbD, BitVec.getMsbD_eq_getLsbD] at this
      have e : w - 1 - (w - 1 - (w - len + i)) = w - len + i := by omega
      have e2 : w - 1 - (w - len + i) < w := by omega
      simpa [e, e2] using this
    · rw [BitVec.getLsbD_of_ge _ _ (by omega), BitVec.getLsbD_of_ge _ _ (by omega)]

/-- R5's comparison, bit by bit from the most significant. -/
theorem Key.agrees_iff (len : Nat) (a b : Key) :
    a.agrees len b = true ↔ a.family = b.family ∧ ∀ j, j < len → a.bit j = b.bit j := by
  cases a <;> cases b <;> simp [Key.agrees, Key.family, Key.bit, shiftRight_eq_iff]

theorem Key.eq_of_family_toNat {a b : Key} (hf : a.family = b.family) (hn : a.toNat = b.toNat) : a = b := by
  cases a <;> cases b <;> simp_all [Key.family, Key.toNat, BitVec.toNat_inj]

/-- Table order as a comparison of four numbers (R4). -/
theorem Identity.before_iff (a b : Identity) : a.before b = true ↔
    a.domain.val < b.domain.val ∨ (a.domain.val = b.domain.val ∧
      (a.family.rank < b.family.rank ∨ (a.family.rank = b.family.rank ∧
        (a.key.toNat < b.key.toNat ∨ (a.key.toNat = b.key.toNat ∧ a.len < b.len))))) := by
  have hr : a.family = b.family ↔ a.family.rank = b.family.rank := by
    cases a.family <;> cases b.family <;> simp [Family.rank]
  simp only [Identity.before, Bool.or_eq_true, Bool.and_eq_true, decide_eq_true_eq, beq_iff_eq, hr, Fin.ext_iff]

theorem Identity.before_irrefl (a : Identity) : a.before a = false := by
  rw [Bool.eq_false_iff]
  intro h
  rw [Identity.before_iff] at h
  omega

theorem Identity.before_trans {a b c : Identity} (h : a.before b = true) (k : b.before c = true) :
    a.before c = true := by
  rw [Identity.before_iff] at *
  omega

/-- Two identities that are not the same are ordered (R4: the first comparison that differs decides). -/
theorem Identity.before_total {a b : Identity} (hne : a ≠ b) (h : a.before b = false) : b.before a = true := by
  rw [Bool.eq_false_iff, ne_eq, Identity.before_iff] at h
  rw [Identity.before_iff]
  by_cases hd : a.domain.val = b.domain.val
  · by_cases hf : a.family.rank = b.family.rank
    · by_cases hk : a.key.toNat = b.key.toNat
      · by_cases hl : a.len = b.len
        · exfalso
          apply hne
          have hfam : a.key.family = b.key.family := by
            have := hf
            simp only [Identity.family] at this
            cases ha : a.key.family <;> cases hb : b.key.family <;> simp_all [Family.rank]
          have hkey := Key.eq_of_family_toNat hfam hk
          cases a; cases b; simp_all [Fin.ext_iff]
        · omega
      · omega
    · omega
  · omega

/-- Insertion adds the route and moves no other out of order. -/
theorem insertRoute_perm (r : Route) (l : List Route) : (insertRoute r l).Perm (r :: l) := by
  induction l with
  | nil => exact .refl _
  | cons x xs ih =>
    simp only [insertRoute]
    split
    · exact .refl _
    · exact (ih.cons x).trans (.swap r x xs)

theorem mem_insertRoute {r x : Route} {l : List Route} : x ∈ insertRoute r l ↔ x = r ∨ x ∈ l := by
  rw [(insertRoute_perm r l).mem_iff, List.mem_cons]

theorem insertRoute_sorted {r : Route} {l : List Route}
    (h : l.Pairwise fun a b => a.ident.before b.ident = true) (hn : ∀ x ∈ l, x.ident ≠ r.ident) :
    (insertRoute r l).Pairwise fun a b => a.ident.before b.ident = true := by
  induction l with
  | nil => simp [insertRoute]
  | cons x xs ih =>
    simp only [insertRoute]
    rw [List.pairwise_cons] at h
    split
    · rename_i hb
      refine .cons ?_ (.cons h.1 h.2)
      intro y hy
      rcases List.mem_cons.1 hy with rfl | hy
      · exact hb
      · exact Identity.before_trans hb (h.1 y hy)
    · rename_i hb
      refine .cons ?_ (ih h.2 fun y hy => hn y (.tail _ hy))
      intro y hy
      rcases mem_insertRoute.1 hy with rfl | hy
      · exact Identity.before_total (Ne.symm (hn x (.head _))) (by simpa using hb)
      · exact h.1 y hy

/-- In a table in strict order a route is the only one of its identity (R3). -/
theorem eq_of_ident {l : List Route} (h : l.Pairwise fun a b => a.ident.before b.ident = true) {a b : Route}
    (ha : a ∈ l) (hb : b ∈ l) (he : a.ident = b.ident) : a = b := by
  induction h with
  | nil => cases ha
  | @cons x xs hx _ ih =>
    rcases List.mem_cons.1 ha with rfl | ha' <;> rcases List.mem_cons.1 hb with rfl | hb'
    · rfl
    · have := hx b hb'; rw [he, Identity.before_irrefl] at this; cases this
    · have := hx a ha'; rw [he, Identity.before_irrefl] at this; cases this
    · exact ih ha' hb'

theorem RouteStore.find?_some {rs : RouteStore} {i : Identity} {r : Route} (h : rs.find? i = some r) :
    r ∈ rs.routes ∧ r.ident = i := by
  unfold RouteStore.find? at h
  exact ⟨List.mem_of_find?_eq_some h, by simpa using List.find?_some h⟩

theorem RouteStore.find?_none {rs : RouteStore} {i : Identity} (h : rs.find? i = none) :
    ∀ r ∈ rs.routes, r.ident ≠ i := by
  unfold RouteStore.find? at h
  simpa using List.find?_eq_none.1 h

theorem RouteStore.successor_some {rs : RouteStore} {i : Identity} {r : Route} (h : rs.successor i = some r) :
    r ∈ rs.routes ∧ i.before r.ident = true := by
  unfold RouteStore.successor at h
  exact ⟨List.mem_of_find?_eq_some h, by simpa using List.find?_some h⟩

/-- The one route of an identity leaves the table; the rest keep their order. -/
theorem filter_ident_perm {l : List Route} (h : l.Pairwise fun a b => a.ident.before b.ident = true) {r : Route}
    (hr : r ∈ l) : (r :: l.filter (·.ident != r.ident)).Perm l := by
  induction h with
  | nil => cases hr
  | @cons x xs hx hxs ih =>
    rcases List.mem_cons.1 hr with rfl | hr'
    · have hall : xs.filter (·.ident != r.ident) = xs := by
        rw [List.filter_eq_self]
        intro y hy
        have := hx y hy
        by_cases he : y.ident = r.ident
        · rw [he, Identity.before_irrefl] at this; cases this
        · simpa using he
      simp [hall]
    · have hne : x.ident ≠ r.ident := by
        intro he
        have := hx r hr'
        rw [he, Identity.before_irrefl] at this; cases this
      have : (x :: xs).filter (·.ident != r.ident) = x :: xs.filter (·.ident != r.ident) := by
        simp [hne]
      rw [this]
      exact (List.Perm.swap x r _).trans ((ih hr').cons x)

/-- The longest of a list is in it and no other is longer. -/
theorem longest_some {l : List Route} {r : Route} (h : longest l = some r) :
    r ∈ l ∧ ∀ x ∈ l, x.ident.len ≤ r.ident.len := by
  induction l generalizing r with
  | nil => cases h
  | cons y ys ih =>
    simp only [longest] at h
    split at h
    · rename_i hn
      cases h
      have : ys = [] := by
        cases ys with
        | nil => rfl
        | cons z zs =>
          simp only [longest] at hn
          split at hn
          · cases hn
          · split at hn <;> cases hn
      subst this; simp
    · rename_i b hb
      obtain ⟨hm, hle⟩ := ih hb
      split at h <;> cases h
      · refine ⟨.tail _ hm, ?_⟩
        intro x hx
        rcases List.mem_cons.1 hx with rfl | hx
        · omega
        · exact hle x hx
      · refine ⟨.head _, ?_⟩
        intro x hx
        rcases List.mem_cons.1 hx with rfl | hx
        · exact Nat.le_refl _
        · have := hle x hx; omega

theorem longest_none {l : List Route} : longest l = none ↔ l = [] := by
  cases l with
  | nil => simp [longest]
  | cons y ys =>
    simp only [longest]
    split
    · simp
    · split <;> simp

theorem RouteStore.longestMatch_some {rs : RouteStore} {d : Fin 16} {k : Key} {r : Route}
    (h : rs.longestMatch d k = some r) :
    r ∈ rs.routes ∧ r.candidate d k = true ∧ ∀ x ∈ rs.routes, x.candidate d k = true → x.ident.len ≤ r.ident.len := by
  obtain ⟨hm, hle⟩ := longest_some h
  rw [List.mem_filter] at hm
  exact ⟨hm.1, hm.2, fun x hx hc => hle x (List.mem_filter.2 ⟨hx, hc⟩)⟩

theorem RouteStore.longestMatch_none {rs : RouteStore} {d : Fin 16} {k : Key} :
    rs.longestMatch d k = none ↔ ∀ x ∈ rs.routes, x.candidate d k = false := by
  unfold RouteStore.longestMatch
  rw [longest_none, List.filter_eq_nil_iff]
  simp

end Sys2Proof.Machine
end

