-- ==== Sys2Proof/WellFormed.lean ====
section
/-! DEFINITION. Well-formed commands. Lane, port and slot numbers, domains, tags and keys are well formed by their
types; what is left to check is that the two rows that carry raw message words carry words of their own kind. -/

namespace Sys2Proof

/-- A command is well formed when the words it carries are of the kind its row says: CHECK_FAILURE's fail the check
(R94), MALFORMED_MESSAGE's pass it and are malformed (R96). -/
def Instr.wellFormed : Instr → Bool
  | .checkFailure _ ws => !passesCheck ws
  | .malformedMessage _ ws => passesCheck ws && isMalformed ws
  | .wordWrite _ | .wordRead | .abort | .workPhaseEnd => true
  | .domainSet | .domainRead | .routeAdd | .routeChange | .routeDrop | .routeRead | .routeFind => true
  | .exitCreate | .exitChange | .exitEnable | .exitDisable | .exitDelete | .exitRead => true
  | .setCreate | .setChange | .setDelete | .setRead | .memberAdd | .memberRemove | .memberWeight => true
  | .setRefill | .mapRead | .portForce | .portRead => true
  | .laneEnable | .laneDisable | .laneRead | .laneWeight | .probe => true
  | .jobStart | .jobCancel | .jobRead | .collect | .attentionMask => true
  | .identify | .setParameters | .readParameters | .readSpace | .restart | .restartComplete => true
  | .signalDetected _ | .alignmentComplete _ | .signalLost _ _ => true
  | .lookupN _ _ _ _ _ _ | .lookupW _ _ _ _ _ _ | .port _ _ _ | .creditSent _ | .resultSent _ => true
  | .reportTaken | .holdDownExpiry _ | .visitClaim _ | .grant | .lookupClaim | .resolutionClaim => true
  | .stepClaim | .refillClaim | .pinClaim _ => true
  | .hardwareReset _ | .supplyInvalid _ | .resetRelease | .supplyValid | .startupClearingEnd => true

end Sys2Proof
end

