-- ==== Sys2Proof/Tests/Slice0.lean ====
section
/-! SUPPORT. Tests: the well-formedness checks, the wire formats against words written out from chapter 10, one or two
small runs of each row, and a witness for the hypotheses of every statement that has any. -/

namespace Sys2Proof.Tests

open Sys2Proof.Machine

-- One theorem after another: checked side by side, the kernel evaluations need a thread each.
set_option Elab.async false

/-! ## Helpers -/

/-- The state in which the CU holds a command of this code with these parameter words, not yet applied. -/
def work (code : Nat) (ps : List Word) (s : State) : State :=
  s.setCu (.busy (wordOf (code * 2 ^ 24 + ps.length) :: ps) .held)

/-- The claims that wait at the Path Table, and at the port table, are these. -/
def line (l : ClaimLine PtClaim) (s : State) : State := s.setPt { s.pt with waiting := l }
def portLine (l : ClaimLine PortClaim) (s : State) : State := s.setPmon { s.pmon with waiting := l }

/-- The command is not yet applied, and the blocks it claims take its claims. -/
theorem work_works {code : Nat} {ps : List Word} {s : State} (h : s.dev.phase = .running) (hc : code < 256)
    (hp : ps.length < 32) (ha : (work code ps s).admits code ps = true := by decide +kernel) :
    (work code ps s).works code ps := by
  refine ⟨⟨h, wordOf (code * 2 ^ 24 + ps.length), .held, ?_, rfl, .inl rfl⟩, ha⟩
  simp only [commandCode, bits, wordOf, BitVec.toNat_ofNat, Nat.shiftRight_eq_div_pow]
  omega

/-- The state after a command. -/
def after (c : Instr) (s : State) : State :=
  match exec c s with
  | .next t => t
  | _ => s

/-- The state after several commands, one after another. -/
def run (s : State) : List Instr → State
  | [] => s
  | c :: cs => run (after c s) cs

/-- The state after a step with nothing commanded. -/
def idle (s : State) : State :=
  match step s with
  | .next t => t
  | _ => s

/-- The answer the CU has formed. -/
def answer (s : State) : Option (ResultCode × List Word) :=
  match s.cu with
  | .busy _ (.answered a) => some (a.code, a.words)
  | _ => none

/-- The host's transactions that write a command. -/
def written (ws : List Word) : List Instr := ws.map .wordWrite

/-- The members of the demonstration's set 1: exit 5 UP with weight 2, exit 6 DOWN with weight 3. -/
def members1 : List Member := [⟨5, 2, true⟩, ⟨6, 3, false⟩]

/-- Exit 5 on the LIVE port 9, exit 6 on port 10, exit 8191 on port 63 with nothing naming it. -/
def exit5 : Exit := ⟨5, true, 9, 0x0A1B2C3D4E5F#48, some 1234, 1500, 1, 1, 0, [1]⟩
def exit6 : Exit := ⟨6, true, 10, 0#48, none, 64, 0, 1, 0, [1]⟩
def exitLast : Exit := ⟨8191, false, 63, 0#48, none, 16383, 0, 0, 0, []⟩

/-- Set 1 with the backup 2; set 2 has no member; nothing names set 4095. -/
def set1 : PathSet := ⟨1, members1, fillMap members1, .eager, .discard, some 2, 1, 0, 0⟩
def set2 : PathSet := ⟨2, [], fillMap [], .hold, .control, none, 0, 1, 0⟩
def setLast : PathSet := ⟨4095, [], fillMap [], .eager, .discard, none, 0, 0, 0⟩

/-- 10.0.0.0/8 to set 1, 10.1.0.0/16 to exit 5, and a WIDE default route that discards. -/
def route8 : Route := ⟨⟨0, .narrow 0x0A000000#32, 8⟩, .pathSet 1, .static, 77#16, false, 0⟩
def route16 : Route := ⟨⟨0, .narrow 0x0A010000#32, 16⟩, .exit 5, .learned, 1804#16, true, 3⟩
def routeWide : Route := ⟨⟨0, .wide 0#128, 0⟩, .discard, .static, 0#16, false, 0⟩

/-- A small state in which every table holds something; lane 0 is UP with an empty queue. -/
def demo : State :=
  { State.reset with
    rs := { RouteStore.reset with
      routes := [route8, route16, routeWide], units := 6
      domains := RouteStore.resetDomains.set 0 ⟨true, .discard, 2, 1⟩ }
    pt := ⟨[exit5, exit6, exitLast], [set1, set2, setLast], [], none⟩
    pmon := PortMonitor.reset.setPort 9 ⟨.live, .none, .live, true, none, .idle⟩
    lanes := State.reset.lanes.set 0 { Lane.reset with link := .up, held := 32, signal := true } }

/-! ## Well-formedness: an ill-formed command for each check is refused -/

theorem test_checkFailure_of_passing_words :
    (Instr.checkFailure 0 (withCheckWord [0x14000011#32])).wellFormed = false ∧
    (Instr.checkFailure 0 [0x14000011#32, 0#32]).wellFormed = true := by decide +kernel

theorem test_malformedMessage_of_wellformed_or_failing_words :
    (Instr.malformedMessage 0 (withCheckWord [0x24000011#32])).wellFormed = false ∧
    (Instr.malformedMessage 0 [0x30000000#32, 0#32]).wellFormed = false ∧
    (Instr.malformedMessage 0 (withCheckWord [0x30000000#32])).wellFormed = true := by decide +kernel

/-! ## The wires, against words written out from chapter 10 -/

/-- Section 10.4's LOOKUP, its check word computed outside the model; R190's fields of it. -/
theorem test_lookupN_words :
    receiveMessage 3 [0x1602004D#32, 0x00001A2B#32, 0x0A7F0001#32, 0x0000EDB0#32]
      = .lookupN 3 0x4D#8 2 true 0x1A2B#16 0x0A7F0001#32 ∧
    receiveMessage 3 [0x1602004D#32, 0x00001A2B#32, 0x0A7F0001#32, 0x0000EDB1#32]
      = .checkFailure 3 [0x1602004D#32, 0x00001A2B#32, 0x0A7F0001#32, 0x0000EDB1#32] := by decide +kernel

/-- A WIDE LOOKUP, a PORT DEAD and a message of unknown kind; check words computed outside the model. Bits 31–16 of a
check word are not read. -/
theorem test_other_message_words :
    receiveMessage 0 [0x18130012#32, 0x0000FFFF#32, 0x20010DB8#32, 0#32, 0#32, 0x80000001#32, 0x2558#32]
      = .lookupW 0 0x12#8 3 false 0xFFFF#16 0x20010DB8000000000000000080000001#128 ∧
    receiveMessage 1 [0x24000011#32, 0xFFFF7B6F#32] = .port 1 17 .live ∧
    receiveMessage 2 [0x30000000#32, 0xA829#32] = .malformedMessage 2 [0x30000000#32, 0xA829#32] := by decide +kernel

/-- Section 10.4's RESULT; the CREDIT of 32 (R191). -/
theorem test_result_words :
    Result.message ⟨.forward, .route, true, some (8, 1100#16), some ⟨302, 7, 0x0A1B2C3D4E5F#48, some 210, 9000⟩⟩ 77#8
      = [0x8470084D#32, 0x044C012E#32, 0x0A1B2C3D#32, 0x4E5F2328#32, 0x070D2000#32, 0x4804#32] ∧
    creditMessage 32 = [0x90000020#32, 0x663D#32] := by decide +kernel

/-- A start marker closes the message that is open; data outside a message are discarded (R188). -/
theorem test_framing : receiveSymbols none [.data 1#32, .startMarker, .data 2#32, .startMarker, .data 3#32, .endMarker,
      .endMarker, .startMarker, .data 4#32] = ([[2#32], [3#32]], some [4#32]) := by decide +kernel

/-- Classification by length and by code, at the ends of the ranges (R94, R96, R190): 1, 8 and 7 words; kind 1h with family
00b, and NARROW in five words; kind 2h with state 11b, and in three words; kind 9h. -/
theorem test_classification :
    receiveMessage 0 [0x24000011#32] = .checkFailure 0 [0x24000011#32] ∧
    receiveMessage 0 (withCheckWord (List.replicate 7 0x18000000#32))
      = .checkFailure 0 (withCheckWord (List.replicate 7 0x18000000#32)) ∧
    [[0x10000000#32, 0#32, 0#32], [0x14000000#32, 0#32, 0#32, 0#32], [0x18000000#32, 0#32, 0#32], [0x2C000011#32],
      [0x24000011#32, 0#32], [0x90000020#32]].all (fun ws =>
        receiveMessage 1 (withCheckWord ws) == .malformedMessage 1 (withCheckWord ws)) = true ∧
    bits 0x0000FFFF#32 15 0 ≠ (crc16 [0x24000011#32]).toNat := by decide +kernel

/-- What the transmitter sends of a message, whole and abandoned after its first word, and what the receiver makes of it
(R188). -/
theorem test_transmitter_framing :
    frame [1#32, 2#32] = [.startMarker, .data 1#32, .data 2#32, .endMarker] ∧
    abandonedFrame [1#32, 2#32] 1 = [.startMarker, .data 1#32] ∧
    receiveSymbols none (abandonedFrame [1#32, 2#32] 1 ++ frame [3#32]) = ([[1#32], [3#32]], none) := by decide +kernel

/-- The bits of 5A000001h and of 4Ch as R192 shifts them. -/
theorem test_sdo :
    (List.range 42).map (State.reset.sdo true 0x31#8) = (List.replicate 8 false ++
      [false, true, false, true, true, false, true, false] ++ List.replicate 23 false ++ [true, false, false]).map some ∧
    (List.range 42).map (State.reset.sdo true 0x2B#8) = List.replicate 42 (some false) ∧
    (List.range 42).map (State.reset.sdo true 0x30#8) = List.replicate 42 (some false) ∧
    State.reset.sdo false 0x31#8 9 = none ∧
    spiReceive ([false, true, false, false, true, true, false, false] ++ List.replicate 32 true) = some .wordRead ∧
    spiReceive ([false, true, false, false, true, true, false, false] ++ List.replicate 31 true) = none := by
  decide +kernel

/-- The opcodes of R192; 39 clocks deliver nothing, and STATUS READ changes nothing (R163). -/
theorem test_transactions :
    spiTransaction 0x2B#8 40 7#32 = some (.wordWrite 7#32) ∧ spiTransaction 0x4C#8 41 7#32 = some .wordRead ∧
    spiTransaction 0x7D#8 40 7#32 = some .abort ∧ spiTransaction 0x2B#8 39 7#32 = none ∧
    spiTransaction 0x31#8 40 7#32 = none ∧ spiTransaction 0x00#8 40 7#32 = none := by decide +kernel

/-- R192: READY reads 5A000001h, the start-up clearing 5A000004h; nothing is driven while RESET# is held. -/
theorem test_status_word : State.reset.statusWord = some 0x5A000001#32 ∧
    (State.reset.setDev { Device.reset with phase := .clearing }).statusWord = some 0x5A000004#32 ∧
    (after (.hardwareReset 1000) demo).statusWord = none := by decide +kernel

/-! ## Witnesses: for every statement that has hypotheses, a state and operands that meet them, clause by clause, with
what the rows then do -/

/-! ### The machine and the management port -/

/-- The port is collecting a command. -/
def collecting (first : Word) (ps : List Word) : State :=
  State.reset.setMp { ManagementPort.reset with state := .collecting, command := first :: ps, lost := true }

/-- In READY: 17h is no code, 10h begins with a parameter to come and is BADLEN without, 80h is complete. -/
theorem witness_CommandWordsAreCollected_ready :
    State.reset.dev.phase = .running ∧ State.reset.mp.state = .ready ∧
    allowedCounts (bits 0x17000000#32 31 24) = none ∧
    (after (.wordWrite 0x17000000#32) State.reset).mp = ⟨.answering, [], [0x01000000#32], false, false, 0#32⟩ ∧
    allowedCounts (bits 0x10FFFF01#32 31 24) = some [1] ∧ 0 < bits 0x10FFFF01#32 4 0 ∧
    (after (.wordWrite 0x10FFFF01#32) State.reset).mp = ⟨.collecting, [0x10FFFF01#32], [], false, false, 0#32⟩ ∧
    bits 0x10000000#32 4 0 = 0 ∧ 0 ∉ [1] ∧
    (after (.wordWrite 0x10000000#32) State.reset).mp = ⟨.answering, [], [0x02000000#32], false, false, 0#32⟩ ∧
    allowedCounts (bits 0x80000000#32 31 24) = some [0] ∧ bits 0x80000000#32 4 0 = 0 ∧
    (after (.wordWrite 0x80000000#32) State.reset).mp = ⟨.working, [0x80000000#32], [], false, false, 0#32⟩ ∧
    (after (.wordWrite 0x80000000#32) State.reset).cu = .busy [0x80000000#32] .held := by decide +kernel

/-- In COLLECTING: SET CREATE's 30th of 31 words and its last; a DOMAIN SET of two words is BADLEN. -/
theorem witness_CommandWordsAreCollected_collecting :
    (collecting 0x3000001F#32 (List.replicate 29 0#32)).mp.state = .collecting ∧
    (∃ counts, allowedCounts (bits 0x3000001F#32 31 24) = some counts ∧ 30 + 1 ∈ counts) ∧
    29 + 1 < bits 0x3000001F#32 4 0 ∧ 30 + 1 = bits 0x3000001F#32 4 0 ∧
    (after (.wordWrite 7#32) (collecting 0x3000001F#32 (List.replicate 29 0#32))).mp.state = .collecting ∧
    (after (.wordWrite 7#32) (collecting 0x3000001F#32 (List.replicate 30 0#32))).cu
      = .busy (0x3000001F#32 :: (List.replicate 30 0#32 ++ [7#32])) .held ∧
    1 + 1 = bits 0x10000002#32 4 0 ∧ allowedCounts (bits 0x10000002#32 31 24) = some [1] ∧ 1 + 1 ∉ [1] ∧
    (after (.wordWrite 7#32) (collecting 0x10000002#32 [0#32])).mp
      = ⟨.answering, [], [0x02000000#32], false, true, 0#32⟩ :=
  ⟨rfl, ⟨_, rfl, by decide⟩, by decide +kernel⟩

/-- The port in ANSWERING with these words left. -/
def answering (ws : List Word) : State := State.reset.setMp { ManagementPort.reset with state := .answering, answer := ws }

theorem witness_StatusFlagsAndLostWords :
    (answering [1#32]).dev.phase ≠ .held ∧ (answering [1#32]).take = false ∧
    (after (.wordWrite 0x80000000#32) (answering [1#32])).mp = { (answering [1#32]).mp with lost := true } ∧
    demo.give = false ∧ (after .wordRead demo).mp.lost = true ∧
    (after (.supplyInvalid .vdd) demo).dev.phase = .held ∧ (answering [1#32]).statusWord = some 0x5A000002#32 ∧
    (answering [0xA0000001#32]).sdo true 0x4C#8 8 = some true ∧ (answering [0xA0000001#32]).sdo true 0x4C#8 39 = some true ∧
    demo.sdo true 0x4C#8 8 = some false ∧ (answering [0xA0000001#32]).sdo true 0x4C#8 40 = some false ∧
    (after (.supplyInvalid .vdd) demo).sdo true 0x31#8 9 = none := by
  decide +kernel

theorem witness_AnswerReadOrAborted :
    (answering [1#32, 2#32]).mp.answer = 1#32 :: [2#32] ∧ [2#32] ≠ [] ∧
    (after .wordRead (answering [1#32, 2#32])).mp = ⟨.answering, [], [2#32], false, false, 1#32⟩ ∧
    (after .wordRead (answering [2#32])).mp = ⟨.ready, [], [], false, false, 2#32⟩ ∧
    (after .abort (answering [2#32])).mp = ManagementPort.reset ∧
    (after .abort (collecting 0x10000001#32 [])).mp.state = .ready ∧
    (after .abort (after (.wordWrite 0x80000000#32) State.reset)).mp.abortHeld = true ∧
    (after .startupClearingEnd demo).dev.phase = .running ∧ (after (.hardwareReset 1000) demo).dev.phase ≠ .running := by
  decide +kernel

/-- COLLECT of an empty list, answered: 0F000000h, or nothing when an abort is held; and an answer of 31 words. -/
theorem witness_WorkPhaseEnds :
    let s := run State.reset [.wordWrite 0x80000000#32, .collect]
    let long := demo.setCu (.busy [0x33000001#32, 0x00010000#32] (.answered ⟨.ok, List.replicate 31 7#32⟩))
    s.dev.phase = .running ∧ s.cu = .busy [0x80000000#32] (.answered ⟨.empty, []⟩) ∧ s.mp.abortHeld = false ∧
    (after .workPhaseEnd s).mp.answer = [0x0F000000#32] ∧ (after .abort s).mp.abortHeld = true ∧
    (run s [.abort, .workPhaseEnd]).mp = ManagementPort.reset ∧ long.mp.abortHeld = false ∧
    (List.replicate 31 7#32).length ≤ 31 ∧ (after .workPhaseEnd long).mp.answer = 0x0000001F#32 :: List.replicate 31 7#32 := by
  decide +kernel

/-- A job that counts. -/
def counting : Job := ⟨.survey ⟨none, none, none, none, none⟩ .count, none, 0, 0, 0, .waiting, none⟩

/-- The demonstration with this job in slot 3. -/
def withJob (j : Job) : State := demo.setSlot 3 (.running j)

/-- A step TAKEN by the Route Store, and one TAKEN by the Path Table. -/
def surveyTaken : State := withJob { counting with step := .taken }
def refillTaken : State := withJob { counting with spec := .refill 0 1, step := .taken }

/-- A visit claim of port 9's pass that the Path Table has TAKEN. -/
def visitTaken (cursor : Option (Nat × Nat)) (stale : Bool) : State :=
  demo.setPt { demo.pt with taken := some (.visit ⟨9, cursor, stale⟩) }

/-- What PORT READ, SET PARAMETERS and READ PARAMETERS have left at the end of the work phase, when the block takes it and when not. -/
theorem witness_WorkPhaseEnds_last :
    let counting := .busy [0x41000001#32, 0x09000000#32] (.counting 9 [1#32, 2#32, 3#32, 4#32] 7)
    let read := demo.setCu counting
    let behind := line [[.visit 9]] read
    let hold := demo.setCu (.busy [0x92000004#32] (.writingHold (some 9)))
    let marks := fun s : State => s.setCu (.busy [0x92000004#32] (.writingMarks (some (6, 5))))
    read.ptAdmits .command = true ∧ (after .workPhaseEnd read).mp.answer = [5#32, 1#32, 2#32, 3#32, 4#32, 0x07000001#32] ∧
    behind.ptAdmits .command = false ∧ (after .workPhaseEnd behind).pt.waiting = [[.visit 9], [.command]] ∧
    (line [[.command]] read).ptAdmits .command = true ∧
    (after .workPhaseEnd (line [[.command], [.visit 3]] read)).pt.waiting = [[.visit 3]] ∧
    ((visitTaken none false).setCu counting).ptAdmits .command = false ∧
    (marks demo).rsFree = true ∧ (after .workPhaseEnd (marks demo)).au.list = [.space 6] ∧
    (marks surveyTaken).rsFree = false ∧ after .workPhaseEnd (marks surveyTaken) = marks surveyTaken ∧
    hold.pmon.admits .command = true ∧ (after .workPhaseEnd hold).mp.answer = [3#32, 9#32, 61440#32, 57344#32] ∧
    (portLine [[.expiry 3]] hold).pmon.admits .command = false ∧
    after .workPhaseEnd (portLine [[.expiry 3]] hold) = portLine [[.expiry 3], [.command]] hold ∧
    (let reading := demo.setCu (.busy [0x93000000#32] (.readingHold 9 8))
     (after .workPhaseEnd reading).mp.answer = [3#32, 500#32, 9#32, 8#32] ∧
     after .workPhaseEnd (portLine [[.expiry 3]] reading) = portLine [[.expiry 3], [.command]] reading) := by decide +kernel

/-- SET DELETE behind a refill claim, and while one is TAKEN; ROUTE DROP while a step is TAKEN: the claims are presented and
wait; presented again they keep their place; a bad argument is refused at once. -/
theorem witness_HostCommandsNeedTheirCommand_claims :
    let behind := fun ps => line [[.refill 3]] (work 0x32 ps demo)
    let await := fun (s : State) ws => s.setCu (.busy ws .waiting)
    (behind [0x0FFF0000#32]).admits 0x32 [0x0FFF0000#32] = false ∧
    after .setDelete (behind [0x0FFF0000#32])
      = line [[.refill 3], [.command]] (await demo [0x32000001#32, 0x0FFF0000#32]) ∧
    (let s := line [[.refill 3], [.command], [.visit 9]] (await demo [0x32000001#32, 0x0FFF0000#32])
     after .setDelete s = s) ∧
    answer (after .setDelete (behind [0x10000000#32])) = some (.badArg, []) ∧
    (let full := (withJob counting).setJe { demo.je with slots := Vector.replicate 4 (.ended counting) }
     let s := line [[.visit 9]]
       (work 0x70 [0x01030800#32, 0#32, 0x02000005#32, 0x01000FFF#32, 0#32, 0#32, 0#32, 0#32] full)
     answer (after .jobStart s) = some (.noSlot, [])) ∧
    (after .setDelete (line [[.command], [.refill 3]] (await demo [0x32000001#32, 0x0FFF0000#32]))).pt
      = ⟨[exit5, exit6, exitLast], [set1, set2], [[.refill 3]], none⟩ ∧
    (work 0x32 [0x0FFF0000#32] refillTaken).admits 0x32 [0x0FFF0000#32] = false ∧
    (work 0x14 [0x00010800#32, 0x0A000000#32] surveyTaken).admits 0x14 [0x00010800#32, 0x0A000000#32] = false ∧
    after .routeDrop (work 0x14 [0x00010800#32, 0x0A000000#32] surveyTaken)
      = await surveyTaken [0x14000002#32, 0x00010800#32, 0x0A000000#32] ∧
    (after .routeDrop (work 0x14 [0x00010800#32, 0x0A000000#32] surveyTaken)).commandAtRouteStore = true := by
  decide +kernel

/-- RESTART is taken up whatever is in progress; PORT FORCE waits behind an expiry; SET PARAMETERS takes the port table first
while a step is TAKEN, and waits when that is not to be had either; READ PARAMETERS waits for the Route Store alone. A command
whose claim is in progress goes on. A lookup passes a READ PARAMETERS that waits only for the port table (R17). -/
theorem witness_HostCommandsNeedTheirCommand_progress :
    let force := portLine [[.expiry 3]] (work 0x40 [0x09020000#32] demo)
    let marks := [0x01010000#32, 100#32, 7#32, 6#32]
    let reading := after .readParameters (portLine [[.expiry 3]] (work 0x93 [] demo))
    [surveyTaken, refillTaken, visitTaken none true].all (fun s => (work 0x91 [] s).admits 0x91 []) = true ∧
    force.admits 0x40 [0x09020000#32] = false ∧
    (after .portForce force).pmon.waiting = [[.expiry 3], [.command]] ∧
    (work 0x92 marks surveyTaken).admits 0x92 marks = true ∧
    (portLine [[.expiry 3]] (work 0x92 marks surveyTaken)).admits 0x92 marks = false ∧
    (after .setParameters (portLine [[.expiry 3]] (work 0x92 marks surveyTaken))).commandAtRouteStore = true ∧
    (after .readParameters (work 0x93 [] surveyTaken)).cu = .busy [0x93000000#32] .waiting ∧
    reading.cu = .busy [0x93000000#32] (.readingHold 61440 57344) ∧ reading.commandAtRouteStore = false ∧
    (let s := { demo with pt := { demo.pt with taken := some (.command [true]) } }
     s.ptAdmits .command = false ∧ s.admits 0x30 [] = true ∧ s.admits 0x70 [] = true) := by
  decide +kernel

/-- Each check, refused while the claims of its command could not be taken; MEMBER ADD makes its checks within its claim, so it
waits. -/
theorem witness_HostCommandsNeedTheirCommand_checks :
    let behind := fun code ps => line [[.refill 3]] (work code ps demo)
    let full := 0x00000102#32 :: 0#32 :: List.replicate 17 0x00050001#32
    answer (after .setCreate (behind 0x30 full)) = some (.setFull, []) ∧
    answer (after .setCreate (behind 0x30 [0x00000102#32, 0#32, 0x00050001#32, 0x00050002#32])) = some (.dupMember, []) ∧
    answer (after .setCreate (behind 0x30 [0x0FFF0102#32, 0x01000FFF#32])) = some (.selfRef, []) ∧
    answer (after .setChange (behind 0x31 [0x00010000#32, 0x00000100#32, 1#32])) = some (.selfRef, []) ∧
    answer (after .jobStart (behind 0x70 [0x01030608#32, 0x00010000#32, 0#32, 0x01000FFF#32, 0x00FFFFFF#32, 0#32, 0#32, 0#32]))
      = some (.badKey, []) ∧
    answer (after .routeDrop (work 0x14 [0x01010600#32, 0x02000000#32] surveyTaken)) = some (.badKey, []) ∧
    answer (after .routeRead (work 0x15 [0x01010602#32, 0x02000000#32] surveyTaken)) = some (.badKey, []) ∧
    answer (after .routeRead (work 0x15 [0x01010603#32, 0x02000000#32] surveyTaken)) = none ∧
    answer (after .memberAdd (behind 0x34 [0x00010000#32, 0x00050001#32])) = none ∧
    answer (after .memberAdd (line [] (behind 0x34 [0x00010000#32, 0x00050001#32]))) = some (.dupMember, []) := by
  decide +kernel

theorem witness_HostCommandsNeedTheirCommand_causes (s : State) :
    checkFails .setCreate (0x00000102#32 :: 0#32 :: List.replicate 17 0x00050001#32) s .setFull ∧
    checkFails .setChange [0x00010000#32, 0x00000100#32, 1#32] s .selfRef ∧
    checkFails .routeDrop [0x01010600#32, 0x02000000#32] s .badKey ∧
    (∀ r, ¬ checkFails .setDelete [0x0FFF0000#32] s r) ∧ ∀ r, ¬ checkFails .readParameters [] s r := by
  refine ⟨⟨rfl, _, rfl, by decide⟩, .inr ⟨rfl, _, _, rfl, rfl⟩, .inl ⟨_, _, rfl, rfl, by decide +kernel⟩, ?_, ?_⟩
  · intro r
    cases r <;> simp [checkFails, badArgs, identityOthers]
    decide
  · intro r
    cases r <;> simp [checkFails, badArgs, identityOthers]

/-- The reads of ports 9 and 10: at once; behind an expiry; and the second behind the CU's claim, presented before it. -/
theorem witness_HostCommandsNeedTheirCommand_reads :
    let at' := fun l => (portLine l demo).pmon
    demo.pmon.readPorts [9, 10] = (demo.pmon, [true, false]) ∧
    (at' [[.expiry 3]]).admits .read = false ∧ (at' [[.expiry 3]]).readPorts [9, 10] = (at' [[.expiry 3], [.read]], []) ∧
    (at' [[.read], [.command]]).admits .read = true ∧
    (at' [[.read], [.command]]).readPorts [9, 10] = (at' [[.command], [.read]], [true]) := by decide +kernel

theorem witness_HostCommandsNeedTheirCommand :
    hostCode .collect = some 0x80 ∧ (∀ ps, ¬ State.reset.holds 0x80 ps) ∧
    ∀ ps, ¬ (work 0x90 [] State.reset).holds 0x80 ps := by
  refine ⟨rfl, ?_, ?_⟩
  · rintro ps ⟨-, w, p, -, h, -⟩
    cases h
  · rintro ps ⟨-, w, p, hc, h, -⟩
    cases h
    exact absurd hc (by decide +kernel)

theorem witness_RefusedCommandsHaveNoEffect :
    hostCode .routeDrop = some 0x14 ∧
    (work 0x14 [0x00010900#32, 0x0A000000#32] demo).cu
      = .busy [0x14000002#32, 0x00010900#32, 0x0A000000#32] .held ∧
    (after .routeDrop (work 0x14 [0x00010900#32, 0x0A000000#32] demo)).cu
      = .busy [0x14000002#32, 0x00010900#32, 0x0A000000#32] (.answered ⟨.absent, []⟩) ∧
    ResultCode.absent ≠ .ok := by decide +kernel

/-- A command's answer at the start of its work in the demonstration. -/
def refusal (c : Instr) (code : Nat) (ps : List Word) : Option (ResultCode × List Word) := answer (after c (work code ps demo))

/-- The first value out of range in each family of commands. -/
theorem witness_RefusedCommandsHaveNoEffect_arguments :
    (work 0x24 [0x20000000#32] demo).holds 0x24 [0x20000000#32] ∧ badArgs .exitDelete [0x20000000#32] ∧
    badArgs .routeAdd [0x01012100#32, 0#32, 0x03000000#32, 0x01000000#32] ∧
    badArgs .routeChange [0x01010600#32, 0#32, 1#32, 0x02002000#32, 0#32] ∧ badArgs .routeRead [0x10010001#32, 0#32] ∧
    badArgs .exitCreate [0x00000140#32, 0#32, 0#32, 0x00000040#32] ∧
    badArgs .exitChange [0#32, 0x00000100#32, 0#32, 4095#32, 0#32] ∧
    badArgs .setChange [0#32, 0x00000300#32, 0#32] ∧
    badArgs .memberAdd [0#32, 0x20000001#32] ∧ badArgs .mapRead [0x00000003#32] ∧ badArgs .portForce [0x3F030000#32] ∧
    badArgs .laneRead [0x04000000#32] ∧ badArgs .probe [0x00020000#32, 0#32, 0#32] ∧
    badArgs .jobStart [0x01030000#32, 0#32, 0#32, 0x03000000#32, 0#32, 0#32, 0#32, 0#32] ∧
    badArgs .jobStart [0x02000000#32, 0x00010000#32] ∧ badArgs .jobCancel [0x04000000#32] ∧
    badArgs .attentionMask [0x00000300#32] ∧ badArgs .setParameters [0x00010000#32, 0#32, 7#32, 7#32] := by
  refine ⟨⟨rfl, _, _, by decide +kernel, rfl, .inl rfl⟩, ?_⟩
  and_intros <;> simp only [badArgs, badIdentity, badFamily, badTarget, badVlan, badMtu, badWeight, badSurvey, identityWords] <;>
    decide +kernel

/-- A member entry with the weight 16. -/
theorem witness_RefusedCommandsHaveNoEffect_entry : badArgs .setCreate [0x00000102#32, 0#32, 0x00000010#32] :=
  .inr (.inr (.inr (.inr (.inr ⟨0x00000010#32, by decide, .inr (.inr (by decide))⟩))))

/-- And so they are answered. -/
theorem test_bad_arguments :
    [refusal .exitDelete 0x24 [0x20000000#32], refusal .routeAdd 0x12 [0x01012100#32, 0#32, 0x03000000#32, 0x01000000#32],
      refusal .routeChange 0x13 [0x01010600#32, 0#32, 1#32, 0x02002000#32, 0#32],
      refusal .routeRead 0x15 [0x10010001#32, 0#32], refusal .exitCreate 0x20 [0x00000140#32, 0#32, 0#32, 0x00000040#32],
      refusal .exitChange 0x21 [0#32, 0x00000100#32, 0#32, 4095#32, 0#32],
      refusal .setChange 0x31 [0#32, 0x00000300#32, 0#32], refusal .memberAdd 0x34 [0#32, 0x20000001#32],
      refusal .mapRead 0x38 [0x00000003#32], refusal .portForce 0x40 [0x3F030000#32],
      refusal .laneRead 0x52 [0x04000000#32], refusal .probe 0x60 [0x00020000#32, 0#32, 0#32],
      refusal .jobStart 0x70 [0x01030000#32, 0#32, 0#32, 0x03000000#32, 0#32, 0#32, 0#32, 0#32],
      refusal .jobCancel 0x71 [0x04000000#32], refusal .attentionMask 0x81 [0x00000300#32],
      refusal .setParameters 0x92 [0x00010000#32, 0#32, 7#32, 7#32]].all (· == some (.badArg, [])) = true := by
  decide +kernel

/-- A key with a one just beyond its length: bit 6 of the key after 6 bits. -/
theorem test_bad_keys :
    refusal .routeChange 0x13 [0x01010600#32, 0x02000000#32, 0#32, 0#32, 0#32] = some (.badKey, []) ∧
    refusal .routeDrop 0x14 [0x01010600#32, 0x02000000#32] = some (.badKey, []) ∧
    refusal .routeRead 0x15 [0x01010602#32, 0x02000000#32] = some (.badKey, []) ∧
    refusal .routeDrop 0x14 [0x01010700#32, 0x02000000#32] = some (.absent, []) ∧
    (⟨1, .narrow 0x02000000#32, 6⟩ : Identity).keyOk = false ∧ (Key.narrow 0x02000000#32).bit 6 = true := by
  decide +kernel

/-! ### Layouts -/

/-- Ranges at their ends: prefix lengths 0, 32 and 128, IDs 4095 and 8191, VLAN 1 and 4094, MTU 64 and 16,383,
weights 1 and 15. -/
theorem witness_OperandLayoutsAreRead :
    ((⟨15, .narrow 0xFFFFFFFF#32, 32⟩ : Identity).len ≤ 32 ∧ (⟨0, .wide 1#128, 128⟩ : Identity).family.width = 128) ∧
    identityOf ([0x0F012000#32, 0xFFFFFFFF#32] ++ [7#32]) 2 = some ⟨15, .narrow 0xFFFFFFFF#32, 32⟩ ∧
    identityOf [0x00028000#32, 0#32, 0#32, 0#32, 1#32] 1 = some ⟨0, .wide 1#128, 128⟩ ∧
    identityOf [0x0F012100#32, 0#32] 1 = none ∧
    targetOf 0x01000FFF#32 = some (.pathSet 4095) ∧ targetOf 0x01001000#32 = none ∧
    targetOf 0x02001FFF#32 = some (.exit 8191) ∧ targetOf 0x0300FFFF#32 = some .discard := by decide +kernel

theorem witness_OperandLayoutsAreRead_creates :
    exitCreateFields [0x1FFF013F#32, 0x0A1B2C3D#32, 0x4E5F0FFE#32, 0x01003FFF#32]
      = some ⟨8191, true, 63, 0x0A1B2C3D4E5F#48, some 4094, 16383, 0, 0, 0, []⟩ ∧
    exitCreateFields [0x00000200#32, 0#32, 0x0000FFFF#32, 0x00000040#32]
      = some ⟨0, false, 0, 0#48, none, 64, 0, 0, 0, []⟩ ∧
    exitCreateFields [0x00000200#32, 0#32, 0#32, 0x01000040#32] = none ∧
    setCreateFields [0x0FFF0203#32, 0x01000FFF#32, 0x1FFF000F#32, 0x00000001#32]
      = some ⟨4095, .hold, .control, some 4095, [(8191, 15), (0, 1)]⟩ ∧
    setCreateFields [0x00000102#32, 0#32, 0x00000010#32] = none := by decide +kernel

theorem witness_OperandLayoutsAreRead_jobs :
    jobSpecOf [0x02000000#32, 0x00000FFF#32] = some (.refill 0 4095) ∧
    jobSpecOf [0x02000000#32, 0x00010000#32] = none ∧
    jobSpecOf [0x01030F08#32, 0x04010000#32, 0x01000032#32, 0x0100003C#32, 0x0A000000#32, 0#32, 0#32, 0#32]
      = some (.survey ⟨some 4, some .narrow, some (.narrow 0x0A000000#32, 8), some (.pathSet 50), none⟩
        (.repoint (.pathSet 60))) := by decide +kernel

/-- The ranges of the layouts' statements are met at their ends. -/
theorem witness_OperandLayoutsAreRead_ranges :
    (Target.pathSet 4095).inRange ∧ (Target.exit 8191).inRange ∧ (JobSpec.refill 4095 4095).inRange ∧
    (JobSpec.survey ⟨none, some .narrow, some (.narrow 0#32, 32), some (.exit 0), none⟩ (.repoint (.exit 8191))).inRange ∧
    (∀ v, some 4094 = some v → 1 ≤ v ∧ v ≤ 4094) ∧ (∀ b, some 4095 = some b → b ≤ 4095) ∧
    ∀ x ∈ [(8191, 15), (0, 1)], x.1 ≤ 8191 ∧ 1 ≤ x.2 ∧ x.2 ≤ 15 := by
  refine ⟨by show 4095 ≤ 4095; decide, by show 8191 ≤ 8191; decide, by show 4095 ≤ 4095 ∧ 4095 ≤ 4095; decide,
    ⟨?_, ?_, ?_⟩, ?_, ?_, by decide⟩
  · rintro t ⟨⟩; show 0 ≤ 8191; decide
  · rintro c ⟨⟩; exact ⟨rfl, by decide⟩
  · rintro t ⟨⟩; exact ⟨by show 8191 ≤ 8191; decide, nofun, nofun⟩
  · rintro v ⟨⟩; decide
  · rintro b ⟨⟩; decide

theorem witness_OperandLayoutsAreRead_changes :
    setChangeFields [0x0FFF0000#32, 0x01010100#32, 0x02030FFF#32] = some (4095, ⟨some .hold, some .control, some (some 4095)⟩) ∧
    setChangeFields [0#32, 0x00000200#32, 0xFFFFFFFF#32] = some (0, ⟨none, none, some none⟩) ∧
    probeFields [0x0F020100#32, 0x0000FFFF#32, 0#32, 0#32, 0#32, 1#32] = some ⟨15, true, 0xFFFF#16, .wide 1#128⟩ ∧
    attrClass 0x0200FFFF#32 = some .learned ∧ attrTag 0x0200FFFF#32 = 0xFFFF#16 := by decide +kernel

/-- What a lane's line carries: quiet, the idle pattern, a CREDIT in its frame. -/
theorem witness_MessagesAreReceived_line :
    (demo.lane 3).link = .disabled ∧ demo.line 3 = .quiet ∧ (demo.lane 0).sending = none ∧ demo.line 0 = .idlePattern ∧
    (demo.updLane 0 fun l => { l with sending := some (.credit 32) }).line 0
      = .message [.startMarker, .data 0x90000020#32, .data 0x663D#32, .endMarker] ∧
    (after (.supplyInvalid .vddl) demo).line 0 = .quiet := by decide +kernel

theorem witness_MessagesAreReceived :
    messageLayout (.port 3 63 .dead) = some [0x2800003F#32] ∧ arrivalLane (.port 3 63 .dead) = some 3 ∧
    messageLayout (.lookupN 0 255#8 15 true 0xFFFF#16 1#32) = some [0x160F00FF#32, 0x0000FFFF#32, 1#32] ∧
    messageLayout (.lookupW 1 0#8 0 false 0#16 1#128) = some [0x18000000#32, 0#32, 0#32, 0#32, 0#32, 1#32] := by
  decide +kernel

/-! ### Domains and settings -/

/-- Domain 15, DISABLED, CONTROL; domain 16 and the codes 3 and 1 are BADARG. -/
theorem witness_DomainSetAndRead :
    (work 0x10 [0x0F0203FF#32] demo).works 0x10 [0x0F0203FF#32] ∧
    (bits 0x0F0203FF#32 31 24 = (15 : Fin 16).val ∧ bits 0x0F0203FF#32 23 16 = enabledCode false ∧
      bits 0x0F0203FF#32 15 8 = DropVerdict.control.code) ∧
    answer (after .domainSet (work 0x10 [0x0F0203FF#32] demo)) = some (.ok, []) ∧
    (after .domainSet (work 0x10 [0x0F0203FF#32] demo)).rs.domain 15 = ⟨false, .control, 0, 0⟩ ∧
    15 < bits 0x10010200#32 31 24 ∧ bits 0x00030200#32 23 16 ∉ [1, 2] ∧ bits 0x00010100#32 15 8 ∉ [2, 3] ∧
    answer (after .domainSet (work 0x10 [0x10010200#32] demo)) = some (.badArg, []) ∧
    answer (after .domainRead (work 0x11 [0#32] demo)) = some (.ok, [0x01020000#32, 2#32, 1#32]) ∧
    answer (after .domainRead (work 0x11 [0x10000000#32] demo)) = some (.badArg, []) :=
  ⟨work_works rfl (by decide) (by decide), by decide +kernel⟩

/-- IDENTIFY's model number, counts and names (R198); READ SPACE. -/
theorem witness_IdentifyAndReadSpace :
    (work 0x90 [] demo).works 0x90 [] ∧ (work 0x94 [] demo).works 0x94 [] ∧
    (answer (after .identify (work 0x90 [] demo))).map (fun x => x.2.length) = some 6 ∧
    answer (after .readSpace (work 0x94 [] demo)) = some (.ok, [6#32, 61440#32, 57344#32, 0x01000000#32]) :=
  ⟨work_works rfl (by decide) (by decide), work_works rfl (by decide) (by decide), by decide +kernel⟩

/-- A hold-down of 10,000 and the least watermarks 1 and 0; at 6 units in use SPACE is posted. -/
theorem witness_ParametersAndWatermark :
    (work 0x93 [] demo).works 0x93 [] ∧
    (work 0x92 [0x01010000#32, 10000#32, 1#32, 0#32] demo).works 0x92 [0x01010000#32, 10000#32, 1#32, 0#32] ∧
    (bits 0x01010000#32 31 24 = 1 ∧ bits 10000#32 15 0 ≤ 10000 ∧ bits 0x01010000#32 23 16 = 1 ∧
      (0#32).toNat < (1#32).toNat ∧ bits 0#32 31 24 = 0 ∧ bits 0#32 23 16 = 0) ∧
    (work 0x92 [0x01010000#32, 10000#32, 1#32, 0#32] demo).rsFree = true ∧
    (run (work 0x92 [0x01010000#32, 10000#32, 1#32, 0#32] demo) [.setParameters, .workPhaseEnd]).mp.answer
      = [3#32, 10000#32, 1#32, 0#32] ∧
    (work 0x92 [0x01010000#32, 10000#32, 1#32, 0#32] surveyTaken).rsFree = false ∧
    (run (work 0x92 [0x01010000#32, 10000#32, 1#32, 0#32] surveyTaken) [.setParameters, .workPhaseEnd]).pmon.holdDown
      = 10000 ∧
    (run (work 0x92 [0x01010000#32, 10000#32, 1#32, 0#32] surveyTaken) [.setParameters, .workPhaseEnd]).rs.high
      = 61440 ∧
    (run (work 0x92 [0x01010000#32, 10000#32, 1#32, 0#32] surveyTaken) [.setParameters, .stepClaim, .workPhaseEnd]).mp.answer
      = [3#32, 10000#32, 1#32, 0#32] ∧
    (after .setParameters (work 0x92 [0x01010000#32, 10000#32, 1#32, 0#32] demo)).au.list = [.space 6] ∧
    answer (after .setParameters (work 0x92 [0x00010000#32, 0#32, 65536#32, 65536#32] demo)) = some (.badArg, []) ∧
    (run (work 0x93 [] demo) [.readParameters, .workPhaseEnd]).mp.answer = [3#32, 500#32, 61440#32, 57344#32] ∧
    (let s := demo.withProgress (.readingHold 9 8)
     s.pmon.admits .command = true ∧ demo.pmon.admits .command = true) :=
  ⟨work_works rfl (by decide) (by decide), work_works rfl (by decide) (by decide), by decide +kernel⟩

/-- The store with 6 units in use, watermarks and arm state as given. -/
def marked (high low : Nat) (armed : Bool) : State := demo.setRs { demo.rs with high := high, low := low, armed := armed }

/-- At the high watermark, just below the low one, at the low one, and between. -/
theorem witness_ParametersAndWatermark_evaluation :
    (marked 6 5 true).evalWatermark = ((marked 6 5 true).setRs { (marked 6 5 true).rs with armed := false }).setAu
      { demo.au with list := [.space 6] } ∧
    (marked 8 7 false).evalWatermark = marked 8 7 true ∧ (marked 8 6 false).evalWatermark = marked 8 6 false ∧
    (marked 7 5 true).evalWatermark = marked 7 5 true := by decide +kernel

/-! ### Routes -/

/-- 0C000000h/6 of domain 1 to set 4095, LEARNED, tag FFFFh; a key with a one beyond its length; a FREE target; a route
that stands; a full store. -/
theorem witness_RouteAddInserts :
    let ps := [0x01010600#32, 0x0C000000#32, 0x01000FFF#32, 0x0200FFFF#32]
    let s := work 0x12 ps demo
    let full := work 0x12 ps (demo.setRs { demo.rs with units := 65536 })
    s.works 0x12 ps ∧ identityOf ps 3 = some ⟨1, .narrow 0x0C000000#32, 6⟩ ∧
    targetOf 0x01000FFF#32 = some (.pathSet 4095) ∧ attrClass 0x0200FFFF#32 = some .learned ∧
    answer (after .routeAdd s) = some (.ok, [7#32]) ∧
    (after .routeAdd s).rs.routes
      = demo.rs.routes ++ [⟨⟨1, .narrow 0x0C000000#32, 6⟩, .pathSet 4095, .learned, 0xFFFF#16, false, 0⟩] ∧
    ((after .routeAdd s).pt.set? 4095).map (·.routeRefs) = some 1 ∧
    answer (after .routeAdd full) = some (.noSpace, []) ∧ (after .routeAdd full).pt = demo.pt :=
  ⟨work_works rfl (by decide) (by decide), by decide +kernel⟩

/-- The reference claims of ROUTE ADD, ROUTE CHANGE and ROUTE DROP behind a refill claim, and while a visit is TAKEN: the command's
claim is in progress at the Route Store, and the reference waits its turn. A command that changes no reference is made at once
(R16, R36). -/
theorem witness_RouteAddInserts_reference :
    let add := fun t => work 0x12 [0x01010600#32, 0x0C000000#32, t, 0x0200FFFF#32]
    let change := fun sel t => work 0x13 [0x00011000#32, 0x0A010000#32, sel, t, 0x01000001#32]
    let drop := work 0x14 [0x00010800#32, 0x0A000000#32]
    let behind := line [[.refill 3]] demo
    [(Instr.routeAdd, add 0x01000FFF#32), (.routeChange, change 1#32 0x02001FFF#32), (.routeChange, change 1#32 0x03000000#32),
      (.routeDrop, drop)].all (fun x =>
        (!(x.2 behind).ptAdmits .reference && (after x.1 (x.2 behind)).pt.waiting == [[.refill 3], [.reference]]
          && (after x.1 (x.2 behind)).rs == demo.rs && (after x.1 (x.2 behind)).commandAtRouteStore)
        && (answer (after x.1 (after x.1 (x.2 (visitTaken none false))))).isNone
        && answer (after x.1 (line [[.reference]] (after x.1 (x.2 behind)))) == answer (after x.1 (x.2 demo))
        && (after x.1 (line [[.reference], [.visit 3]] (after x.1 (x.2 behind)))).pt.waiting == [[.visit 3]]) = true ∧
    [(Instr.routeAdd, add 0x03000000#32), (.routeChange, change 6#32 0#32),
      (.routeDrop, work 0x14 [0x00020000#32, 0#32, 0#32, 0#32, 0#32])].all (fun x =>
        answer (after x.1 (x.2 (visitTaken none false))) == answer (after x.1 (x.2 demo))
          && (answer (after x.1 (x.2 demo))).map (·.1) == some .ok) = true ∧
    answer (after .routeDrop (work 0x14 [0x00010900#32, 0x0A000000#32] (visitTaken none false))) = some (.absent, []) := by
  decide +kernel

/-- A RETIRE step presents its reference claim behind an EXIT DELETE that waits: the exit is still named, and the command answers
INUSE; the other way round it answers OK (R36, R37). -/
theorem test_references_keep_the_line :
    let t : Target := .exit 8191
    let retire := Slot.running { counting with spec := .survey ⟨none, none, none, some t, none⟩ .retire,
                                               cursor := some (.route route8.ident) }
    let s := (((visitTaken (some (8191, 0)) true).setRs (demo.rs.updRoute route16.ident fun r => { r with target := t })).setPt
      ((visitTaken (some (8191, 0)) true).pt.countRoute (· + 1) t |>.releaseRoute (.exit 5))).setSlot 3 retire
    let delete := work 0x24 [0x1FFF0000#32] s
    answer (run delete [.exitDelete, .stepClaim, .visitClaim 9, .exitDelete]) = some (.inUse, []) ∧
    (run delete [.exitDelete, .stepClaim]).pt.waiting = [[.command], [.reference]] ∧
    answer (run delete [.stepClaim, .exitDelete, .visitClaim 9, .stepClaim, .exitDelete]) = some (.ok, []) := by
  decide +kernel

theorem witness_RouteAddInserts_refused :
    answer (after .routeAdd (work 0x12 [0x01010500#32, 0x0C000000#32, 0x01000FFF#32, 0x02000000#32] demo))
      = some (.badKey, []) ∧
    answer (after .routeAdd (work 0x12 [0x01010600#32, 0x0C000000#32, 0x01000003#32, 0x02000000#32] demo))
      = some (.noTarget, []) ∧
    answer (after .routeAdd (work 0x12 [0x00010800#32, 0x0A000000#32, 0x03000000#32, 0x01000000#32] demo))
      = some (.exists, []) ∧
    (after .routeAdd (work 0x12 [0x00010700#32, 0x0A000000#32, 0x03000000#32, 0x01000000#32] demo)).rs.routes.map
      (·.ident.len) = [7, 8, 16, 0] := by decide +kernel

/-- Every selection bit: from exit 5 to exit 8191, STATIC, tag 1, activity reset; then none; a FREE target; no route. -/
theorem witness_RouteChangeWrites :
    let ps := [0x00011000#32, 0x0A010000#32, 0x0000000F#32, 0x02001FFF#32, 0x01000001#32]
    let s := work 0x13 ps demo
    s.works 0x13 ps ∧ identityOf ps 4 = some ⟨0, .narrow 0x0A010000#32, 16⟩ ∧
    targetOf 0x02001FFF#32 = some (.exit 8191) ∧ attrClass 0x01000001#32 = some .static ∧
    demo.rs.find? ⟨0, .narrow 0x0A010000#32, 16⟩ = some route16 ∧
    answer (after .routeChange s) = some (.ok, []) ∧
    (after .routeChange s).rs.find? route16.ident = some ⟨route16.ident, .exit 8191, .static, 1#16, false, 0⟩ ∧
    (after .routeChange s).pt.exits.map (·.routeRefs) = [0, 0, 1] ∧
    answer (after .routeChange (work 0x13 [0x00011000#32, 0x0A010000#32, 1#32, 0x02000007#32, 0#32] demo))
      = some (.noTarget, []) ∧
    (after .routeChange (work 0x13 [0x00011000#32, 0x0A010000#32, 0#32, 0#32, 0#32] demo)).rs = demo.rs ∧
    answer (after .routeChange (work 0x13 [0x00011100#32, 0x0A010000#32, 0#32, 0#32, 0#32] demo))
      = some (.absent, []) :=
  ⟨work_works rfl (by decide) (by decide), by decide +kernel⟩

theorem witness_RouteDropWithdraws :
    let ps := [0x00020000#32, 0#32, 0#32, 0#32, 0#32]
    let s := work 0x14 ps demo
    s.works 0x14 ps ∧ identityOf ps 1 = some routeWide.ident ∧ demo.rs.find? routeWide.ident = some routeWide ∧
    answer (after .routeDrop s) = some (.ok, [2#32]) ∧ (after .routeDrop s).rs.routes = [route8, route16] ∧
    ((after .routeDrop s).rs.domain 0).wideCount = 0 ∧
    (after .routeDrop (work 0x14 [0x00010800#32, 0x0A000000#32] demo)).pt.sets.map (·.routeRefs) = [0, 0, 0] :=
  ⟨work_works rfl (by decide) (by decide), by decide +kernel⟩

/-- FIRST, EXACT and NEXT, the last at the end of the table too; the longest match of 10.1.2.3 and of 10.2.0.0. -/
theorem witness_RouteReadAndFind :
    (work 0x15 [0x00010803#32, 0#32] demo).works 0x15 [0x00010803#32, 0#32] ∧
    (work 0x16 [0x00010000#32, 0x0A010203#32] demo).works 0x16 [0x00010000#32, 0x0A010203#32] ∧
    answer (after .routeRead (work 0x15 [0x00010803#32, 0#32] demo))
      = some (.ok, [0x00010800#32, 0x0A000000#32, 0x01000001#32, 0x0100004D#32, 0#32, 0#32]) ∧
    answer (after .routeRead (work 0x15 [0x00010802#32, 0x0A000000#32] demo)) = some (.ok, route16.toWords) ∧
    answer (after .routeRead (work 0x15 [0x00010801#32, 0x0A000000#32] demo)) = some (.ok, route8.toWords) ∧
    answer (after .routeRead (work 0x15 [0x00020002#32, 0#32, 0#32, 0#32, 0#32] demo)) = some (.absent, []) ∧
    answer (after .routeFind (work 0x16 [0x00010000#32, 0x0A010203#32] demo)) = some (.ok, route16.toWords) ∧
    answer (after .routeFind (work 0x16 [0x00010000#32, 0x0A020000#32] demo)) = some (.ok, route8.toWords) ∧
    answer (after .routeFind (work 0x16 [0x00010000#32, 0x0B000000#32] demo)) = some (.absent, []) :=
  ⟨work_works rfl (by decide) (by decide), work_works rfl (by decide) (by decide), by decide +kernel⟩

theorem witness_lawful_store : demo.rs.lawful := by
  unfold RouteStore.lawful
  decide +kernel

/-! ### Exits -/

/-- Exit 0 is made; exit 8191 stands; it is deleted, exit 5 is in use, exit 0 is FREE. -/
theorem witness_ExitCreateAndDelete :
    let ps := [0x00000100#32, 0#32, 0#32, 0x00000040#32]
    let last := [0x1FFF0100#32, 0#32, 0#32, 0x00000040#32]
    (work 0x20 ps demo).works 0x20 ps ∧ (work 0x24 [0x1FFF0000#32] demo).works 0x24 [0x1FFF0000#32] ∧
    exitCreateFields ps = some ⟨0, true, 0, 0#48, none, 64, 0, 0, 0, []⟩ ∧ demo.pt.exit? 0 = none ∧
    (after .exitCreate (work 0x20 ps demo)).pt.exits.map (·.id) = [0, 5, 6, 8191] ∧
    answer (after .exitCreate (work 0x20 last demo)) = some (.exists, []) ∧
    demo.pt.exit? 8191 = some exitLast ∧
    (after .exitDelete (work 0x24 [0x1FFF0000#32] demo)).pt.exits = [exit5, exit6] ∧
    answer (after .exitDelete (work 0x24 [0x00050000#32] demo)) = some (.inUse, []) ∧
    answer (after .exitDelete (work 0x24 [0#32] demo)) = some (.absent, []) :=
  ⟨work_works rfl (by decide) (by decide), work_works rfl (by decide) (by decide), by decide +kernel⟩

/-- EXIT CHANGE of exit 6 to the LIVE port 9 with VLAN 4094 and MTU 16,383 brings its member UP; DISABLE and ENABLE. -/
theorem witness_ExitCommandsVisitUsers :
    let ps := [0x00060009#32, 0x01000101#32, 0#32, 0x00000FFE#32, 0x00003FFF#32]
    (work 0x21 ps demo).works 0x21 ps ∧ (work 0x22 [0x1FFF0000#32] demo).works 0x22 [0x1FFF0000#32] ∧
    (work 0x23 [0x00050000#32] demo).works 0x23 [0x00050000#32] ∧
    demo.pt.exit? 6 = some exit6 ∧ demo.pt.exit? 5 = some exit5 ∧ bits 0x1FFF0000#32 31 16 = 8191 ∧
    (after .exitChange (work 0x21 ps demo)).pt.exit? 6 = some { exit6 with port := 9, vlan := some 4094, mtu := 16383 } ∧
    ((after .exitChange (work 0x21 ps demo)).pt.set? 1).map (fun p => (p.members, bucketCount p.map 5, bucketCount p.map 6))
      = some ([⟨5, 2, true⟩, ⟨6, 3, true⟩], 26, 38) ∧
    ((after .exitDisable (work 0x23 [0x00050000#32] demo)).pt.set? 1).map (·.allEmpty) = some true ∧
    (after .exitEnable (work 0x22 [0x1FFF0000#32] demo)).pt.exit? 8191 = some { exitLast with enabled := true } ∧
    answer (after .exitEnable (work 0x22 [0x1FFE0000#32] demo)) = some (.absent, []) :=
  ⟨work_works rfl (by decide) (by decide), work_works rfl (by decide) (by decide),
    work_works rfl (by decide) (by decide), by decide +kernel⟩

/-- The reads of a command's claim behind an expiry: the claim is in progress at the Path Table, and its read waits; the second
read of SET CREATE behind one presented since; then the commands are finished by their rows (R36, R84). -/
theorem witness_ExitCommandsVisitUsers_reads :
    let behind := portLine [[.expiry 3]]
    let create := [0x00000203#32, 0x01000FFF#32, 0x00050001#32, 0x1FFF000F#32]
    [(Instr.exitDisable, work 0x23 [0x00050000#32]), (.exitEnable, work 0x22 [0x00060000#32]), (.exitRead, work 0x25 [0x00050000#32, 0#32]),
      (.exitChange, work 0x21 [0x00060009#32, 0x01000000#32, 0#32, 0#32, 0#32]), (.setCreate, work 0x30 create),
      (.memberAdd, work 0x34 [0x0FFF0000#32, 0x00050001#32])].all (fun x =>
        let s := after x.1 (x.2 (behind demo))
        s.pt == { demo.pt with taken := some (.command []) } && s.pmon.waiting == [[.expiry 3], [.read]]
          && (answer s).isNone && !s.ptAdmits .reference
          && after x.1 s == s && answer (after x.1 (portLine [[.read]] s)) == answer (after x.1 (x.2 demo))
          && (after x.1 (portLine [[.read]] s)).pt == (after x.1 (x.2 demo)).pt) = true ∧
    (let s := after .setCreate (portLine [[.read], [.expiry 3]] (after .setCreate (work 0x30 create (behind demo))))
     s.pt.taken = some (.command [true]) ∧ s.pmon.waiting = [[.expiry 3], [.read]] ∧
     portsRead 0x30 create s.pt = [9, 63]) ∧
    (demo.readsOf [9, 63]).2 = [true, false] ∧ ((behind demo).readsOf [9, 63]).2 = [] := by
  decide +kernel

/-- The address is written or kept, and the VLAN made absent. -/
theorem witness_ExitCommandsVisitUsers_fields :
    (after .exitChange (work 0x21 [0x00050000#32, 0x00010200#32, 0x11112222#32, 0x3333FFFF#32, 0#32] demo)).pt.exit? 5
      = some { exit5 with addr := 0x111122223333#48, vlan := none } ∧
    answer (after .exitChange (work 0x21 [0x00050000#32, 0x00000001#32, 0#32, 0#32, 63#32] demo)) = some (.badArg, []) ∧
    answer (after .exitChange (work 0x21 [0x00050000#32, 0x00000100#32, 0#32, 4095#32, 0#32] demo))
      = some (.badArg, []) := by decide +kernel

theorem witness_TableReadsAnswer :
    (work 0x25 [0x00050000#32, 1#32] demo).works 0x25 [0x00050000#32, 1#32] ∧
    (work 0x33 [0x00010000#32] demo).works 0x33 [0x00010000#32] ∧
    (work 0x38 [0x00010002#32] demo).works 0x38 [0x00010002#32] ∧
    demo.pt.exit? 5 = some exit5 ∧ demo.pt.set? 1 = some set1 ∧
    answer (after .exitRead (work 0x25 [0x00050000#32, 1#32] demo)) = some (.ok, [0x01090100#32, 0x0A1B2C3D#32,
      0x4E5F04D2#32, 0x010005DC#32, 1#32, 0x00010000#32, 0x01000000#32, 0x00010000#32]) ∧
    answer (after .exitRead (work 0x25 [0x1FFF0000#32, 4095#32] demo)) = some (.ok, [0x023F0000#32, 0#32,
      0#32, 0x00003FFF#32, 0#32, 0#32, 0#32]) ∧
    answer (after .exitRead (work 0x25 [0x00050000#32, 4096#32] demo)) = some (.badArg, []) ∧
    answer (after .exitRead (work 0x25 [0#32, 0#32] demo)) = some (.absent, []) ∧
    answer (after .setRead (work 0x33 [0#32] demo)) = some (.absent, []) ∧
    answer (after .mapRead (work 0x38 [0x00000002#32] demo)) = some (.absent, []) ∧
    answer (after .setRead (work 0x33 [0x00010000#32] demo)) = some (.ok, [0x01020002#32, 0x01000002#32, 1#32, 0#32,
      0x00052140#32, 0x00063200#32]) ∧
    answer (after .setRead (work 0x33 [0x0FFF0000#32] demo)) = some (.ok, [0x01020000#32, 0#32, 0#32, 0#32]) ∧
    answer (after .mapRead (work 0x38 [0x00010002#32] demo))
      = some (.ok, 0x02010000#32 :: List.replicate 16 0x00050005#32) ∧
    answer (after .mapRead (work 0x38 [0x00020001#32] demo))
      = some (.ok, 0#32 :: List.replicate 16 0xFFFFFFFF#32) :=
  ⟨work_works rfl (by decide) (by decide), work_works rfl (by decide) (by decide),
    work_works rfl (by decide) (by decide), by decide +kernel⟩

/-! ### Path sets and maps -/

/-- Set 0 of exits 5 and 8191 with the backup 4095. -/
theorem witness_SetCreateMakesActive :
    let ps := [0x00000203#32, 0x01000FFF#32, 0x00050001#32, 0x1FFF000F#32]
    let s := work 0x30 ps demo
    s.works 0x30 ps ∧ setCreateFields ps = some ⟨0, .hold, .control, some 4095, [(5, 1), (8191, 15)]⟩ ∧
    demo.pt.set? 0 = none ∧
    answer (after .setCreate s) = some (.ok, []) ∧
    (after .setCreate s).pt.set? 0 = some ⟨0, [⟨5, 1, true⟩, ⟨8191, 15, false⟩], List.replicate 64 (some 5), .hold,
      .control, some 4095, 0, 0, 0⟩ ∧
    ((after .setCreate s).pt.set? 4095).map (·.backupRefs) = some 1 ∧
    (after .setCreate s).pt.exits.map (fun e => (e.memberRefs, e.users)) = [(2, [0, 1]), (1, [1]), (1, [0])] :=
  ⟨work_works rfl (by decide) (by decide), by decide +kernel⟩

/-- 17 entries; an exit twice; itself as backup; a set that stands; a FREE backup; a FREE exit. -/
theorem witness_SetCreateMakesActive_refused :
    answer (after .setCreate (work 0x30 (0x00000102#32 :: 0#32 :: List.replicate 17 0x00050001#32) demo))
      = some (.setFull, []) ∧
    answer (after .setCreate (work 0x30 (0x00000102#32 :: 0#32 :: List.replicate 16 0x00050001#32) demo))
      = some (.dupMember, []) ∧
    answer (after .setCreate (work 0x30 [0x0FFF0102#32, 0x01000FFF#32] demo)) = some (.selfRef, []) ∧
    answer (after .setCreate (work 0x30 [0x0FFF0102#32, 0x00000FFF#32] demo)) = some (.exists, []) ∧
    answer (after .setCreate (work 0x30 [0x00000102#32, 0x01000003#32] demo)) = some (.noTarget, []) ∧
    answer (after .setCreate (work 0x30 [0x00000102#32, 0#32, 0x00070001#32] demo)) = some (.noTarget, []) := by
  decide +kernel

/-- Set 1's backup 2 gives way to 4095, and to none; a set's own ID; a FREE set; a FREE backup. -/
theorem witness_SetChangeWrites :
    let ps := [0x00010000#32, 0x01010100#32, 0x02030FFF#32]
    let s := work 0x31 ps demo
    s.works 0x31 ps ∧ setChangeFields ps = some (1, ⟨some .hold, some .control, some (some 4095)⟩) ∧
    demo.pt.set? 1 = some set1 ∧ (demo.pt.set? 4095).isSome = true ∧
    (after .setChange s).pt.set? 1 = some { set1 with rejoin := .hold, emptyVerdict := .control, backup := some 4095 } ∧
    (after .setChange s).pt.sets.map (·.backupRefs) = [0, 0, 1] ∧
    (after .setChange (work 0x31 [0x00010000#32, 0x00000200#32, 0#32] demo)).pt.sets.map (·.backupRefs) = [0, 0, 0] ∧
    (after .setChange (work 0x31 [0x00010000#32, 0x00000100#32, 2#32] demo)).pt = demo.pt ∧
    answer (after .setChange (work 0x31 [0x00010000#32, 0x00000100#32, 1#32] demo)) = some (.selfRef, []) ∧
    answer (after .setChange (work 0x31 [0#32, 0#32, 0#32] demo)) = some (.absent, []) ∧
    answer (after .setChange (work 0x31 [0x00010000#32, 0x00000100#32, 3#32] demo)) = some (.noTarget, []) :=
  ⟨work_works rfl (by decide) (by decide), by decide +kernel⟩

/-- Set 1 once no route names it. -/
theorem witness_SetDeleteReleases :
    let s := work 0x32 [0x00010000#32] (demo.setPt (demo.pt.updSet 1 fun p => { p with routeRefs := 0 }))
    s.works 0x32 [0x00010000#32] ∧ s.pt.set? 1 = some { set1 with routeRefs := 0 } ∧
    (set1.members.map (·.exit)).Nodup ∧
    answer (after .setDelete s) = some (.ok, []) ∧ (after .setDelete s).pt.sets = [{ set2 with backupRefs := 0 }, setLast] ∧
    (after .setDelete s).pt.exits.map (fun e => (e.memberRefs, e.users)) = [(0, []), (0, []), (0, [])] ∧
    answer (after .setDelete (work 0x32 [0x00010000#32] demo)) = some (.inUse, []) ∧
    answer (after .setDelete (work 0x32 [0#32] demo)) = some (.absent, []) ∧
    answer (after .setDelete (work 0x32 [0x10000000#32] demo)) = some (.badArg, []) :=
  ⟨work_works rfl (by decide) (by decide), by decide +kernel⟩

/-- Exit 8191 joins set 4095 with weight 15, DOWN; exit 5 joins it UP; a set of 16 is full. -/
theorem witness_MembersJoinAndLeave_add :
    let ps := [0x0FFF0000#32, 0x1FFF000F#32]
    let full := demo.setPt (demo.pt.updSet 4095 fun p => { p with members := (List.range 16).map fun i => ⟨i + 9, 1, false⟩ })
    (work 0x34 ps demo).works 0x34 ps ∧ demo.pt.set? 4095 = some setLast ∧ demo.pt.exit? 8191 = some exitLast ∧
    answer (after .memberAdd (work 0x34 ps demo)) = some (.ok, [0x02000000#32]) ∧
    answer (after .memberAdd (work 0x34 [0x0FFF0000#32, 0x00050001#32] demo)) = some (.ok, [0x01000000#32]) ∧
    ((after .memberAdd (work 0x34 [0x0FFF0000#32, 0x00050001#32] demo)).pt.set? 4095).map (·.map)
      = some (List.replicate 64 (some 5)) ∧
    answer (after .memberAdd (work 0x34 ps full)) = some (.setFull, []) ∧
    answer (after .memberAdd (work 0x34 [0x00010000#32, 0x00050001#32] demo)) = some (.dupMember, []) ∧
    answer (after .memberAdd (work 0x34 [0x00010000#32, 0x00070001#32] demo)) = some (.noTarget, []) ∧
    answer (after .memberAdd (work 0x34 [0#32, 0x00070001#32] demo)) = some (.absent, []) ∧
    answer (after .memberAdd (work 0x34 [0x0FFF0000#32, 0x1FFF0010#32] demo)) = some (.badArg, []) :=
  ⟨work_works rfl (by decide) (by decide), by decide +kernel⟩

/-- The UP member 5 leaves set 1: every bucket becomes EMPTY. -/
theorem witness_MembersJoinAndLeave_remove :
    let ps := [0x00010000#32, 0x00050000#32]
    (work 0x35 ps demo).works 0x35 ps ∧ set1.member? 5 = some ⟨5, 2, true⟩ ∧
    ((after .memberRemove (work 0x35 ps demo)).pt.set? 1).map (fun p => (p.members, p.allEmpty))
      = some ([⟨6, 3, false⟩], true) ∧
    (after .memberRemove (work 0x35 ps demo)).pt.exits.map (·.users) = [[], [1], []] ∧
    answer (after .memberRemove (work 0x35 [0x00010000#32, 0x1FFF0000#32] demo)) = some (.absent, []) :=
  ⟨work_works rfl (by decide) (by decide), by decide +kernel⟩

/-- A set of exits 5 and 6, both UP, whose map names 5 alone. -/
def lopsided : State :=
  demo.setPt (demo.pt.updSet 1 fun p => { p with members := [⟨5, 1, true⟩, ⟨6, 1, true⟩], rejoin := .hold })

theorem witness_WeightAndRefill :
    (work 0x36 [0x00010000#32, 0x0005000F#32] demo).works 0x36 [0x00010000#32, 0x0005000F#32] ∧
    (work 0x37 [0x00010000#32] lopsided).works 0x37 [0x00010000#32] ∧ demo.pt.set? 1 = some set1 ∧
    set1.member? 5 = some ⟨5, 2, true⟩ ∧ (lopsided.pt.set? 1).map (·.map.length) = some 64 ∧
    ((after .memberWeight (work 0x36 [0x00010000#32, 0x0005000F#32] demo)).pt.set? 1).map (·.members)
      = some [⟨5, 15, true⟩, ⟨6, 3, false⟩] ∧
    (after .memberWeight (work 0x36 [0x00010000#32, 0x00050002#32] demo)).pt = demo.pt ∧
    ((after .memberWeight (work 0x36 [0x00010000#32, 0x00060004#32] lopsided)).pt.set? 1).map (bucketCount ·.map 6)
      = some 0 ∧
    answer (after .memberWeight (work 0x36 [0x00010000#32, 0x1FFF0001#32] demo)) = some (.absent, []) ∧
    answer (after .memberWeight (work 0x36 [0#32, 0x00050001#32] demo)) = some (.absent, []) ∧
    answer (after .setRefill (work 0x37 [0#32] demo)) = some (.absent, []) ∧
    answer (after .setRefill (work 0x37 [0x00010000#32] lopsided)) = some (.ok, [32#32]) ∧
    ((after .setRefill (work 0x37 [0x00010000#32] lopsided)).pt.set? 1).map (bucketCount ·.map 6) = some 32 :=
  ⟨work_works rfl (by decide) (by decide), work_works rfl (by decide) (by decide), by decide +kernel⟩

/-- Weights 2 and 3 over 64 buckets: 12 whole passes, and the cut pass gives the first 2 and the second 2 (R57), the last
bucket of each member's in the second pass and in the cut pass. No member UP: every bucket EMPTY. -/
theorem witness_FillRuleCounts :
    ([⟨5, 2, true⟩, ⟨7, 9, false⟩, ⟨6, 3, true⟩].map Member.exit).Nodup ∧
    ([⟨5, 2, true⟩, ⟨7, 9, false⟩, ⟨6, 3, true⟩] : List Member).filter (·.up) = [⟨5, 2, true⟩] ++ ⟨6, 3, true⟩ :: [] ∧
    bucketCount (fillMap [⟨5, 2, true⟩, ⟨7, 9, false⟩, ⟨6, 3, true⟩]) 6 = 3 * 12 + 2 ∧
    bucketCount (fillMap [⟨5, 2, true⟩, ⟨7, 9, false⟩, ⟨6, 3, true⟩]) 5 = 2 * 12 + 2 ∧
    1 * 5 + 2 + 2 = 9 ∧ (fillMap [⟨5, 2, true⟩, ⟨7, 9, false⟩, ⟨6, 3, true⟩])[9]? = some (some 6) ∧
    12 * 5 + 2 + 1 = 63 ∧ (fillMap [⟨5, 2, true⟩, ⟨7, 9, false⟩, ⟨6, 3, true⟩])[63]? = some (some 6) ∧
    fillMap [⟨7, 9, false⟩] = List.replicate 64 none := by decide +kernel

/-- The rows of the table "Fill rule at a glance" with W = 15 and W = 75. -/
theorem test_fill_rule_at_a_glance :
    (let m := fillMap [⟨10, 5, true⟩, ⟨11, 5, true⟩, ⟨12, 5, true⟩]
     [10, 11, 12].map (bucketCount m) = [24, 20, 20] ∧ m[63]? = some (some 10)) ∧
    [1, 2, 3, 4, 5].map (bucketCount (fillMap ([1, 2, 3, 4, 5].map fun e => ⟨e, 15, true⟩))) = [15, 15, 15, 15, 4] := by
  decide +kernel

/-- A set of three: 5 loses its three buckets; 6 holds one bucket and 7 two, so 6, then 6 on the tie, then 7. -/
def losing : PathSet :=
  { set2 with members := [⟨5, 1, true⟩, ⟨6, 1, true⟩, ⟨7, 1, true⟩], map := [5, 6, 5, 7, 5, 7].map some }

theorem witness_LossRuleReassigns :
    (losing.members.map (·.exit)).Nodup ∧ (losing.map[2]? = some (some 5) ∧ losing.map[3]? ≠ some (some 5)) ∧
    (losing.members.filter fun m => m.up && m.exit != 5).map (·.exit) = [] ++ 6 :: [7] ∧
    (losing.lose 5).map = [6, 6, 6, 7, 7, 7].map some ∧
    ({ losing with members := [⟨5, 1, true⟩] }.lose 5).map = [none, some 6, none, some 7, none, some 7] := by
  decide +kernel

theorem witness_MemberUpdateCases :
    set1.member? 5 = some ⟨5, 2, true⟩ ∧ set1.memberUpdate 5 true = set1 ∧
    (set1.memberUpdate 5 false).map = List.replicate 64 none ∧ set1.member? 6 = some ⟨6, 3, false⟩ ∧
    bucketCount (set1.memberUpdate 6 true).map 6 = 38 ∧
    bucketCount ({ set1 with rejoin := .hold }.memberUpdate 6 true).map 6 = 0 := by decide +kernel

/-! ### Ports -/

theorem witness_EffectiveChange :
    ((fun x => { x with forced := .dead } : Port → Port) (demo.port 9)).live = (demo.port 9).live ∧
    (demo.portClaim 9 fun x => { x with forced := .dead }).port 9 = ⟨.live, .dead, .live, false, none, .running none⟩ ∧
    (demo.portClaim 9 fun x => { x with forced := .dead }).pt.waiting = [[.visit 9]] ∧
    ((line [[.visit 9], [.visit 3]] demo).portClaim 9 fun x => { x with forced := .dead }).pt.waiting
      = [[.visit 3], [.visit 9]] ∧
    ((visitTaken none false).portClaim 9 fun x => { x with forced := .dead }).pt.visiting = some ⟨9, none, true⟩ ∧
    ((visitTaken none false).portClaim 9 fun x => { x with forced := .dead }).pt.waiting = [] ∧
    ((visitTaken none false).portClaim 3 fun x => { x with forced := .live }).pt.waiting = [[.visit 3]] ∧
    ((portLine [[.expiry 9, .expiry 3]] demo).portClaim 9 fun x => { x with forced := .dead }).pmon.waiting
      = [[.expiry 3]] ∧
    (demo.portClaim 9 fun x => { x with forced := .dead }).au.list = [.port 9 false 1] ∧
    (demo.portClaim 9 fun x => { x with forced := .live }).au.list = [] ∧
    (demo.portClaim 63 fun x => { x with forced := .live }).au.list = [.port 63 true 1] := by decide +kernel

theorem witness_PortForceAndRead :
    (work 0x40 [0x3F010000#32] demo).works 0x40 [0x3F010000#32] ∧ (work 0x41 [0x09000000#32] demo).works 0x41 [0x09000000#32] ∧
    (bits 0x3F010000#32 31 24 = (63 : Fin 64).val ∧ bits 0x3F010000#32 23 16 = PortView.live.code) ∧
    answer (after .portForce (work 0x40 [0x3F010000#32] demo)) = some (.ok, [0x01000100#32]) ∧
    answer (after .portForce (work 0x40 [0x40010000#32] demo)) = some (.badArg, []) ∧
    (after .portRead (work 0x41 [0x09000000#32] demo)).cu
      = .busy [0x41000001#32, 0x09000000#32] (.counting 9 [0x01000101#32, 0#32, 0#32, 0#32] 0) ∧
    (run (work 0x41 [0x09000000#32] demo) [.portRead, .workPhaseEnd]).mp.answer
      = [5#32, 0x01000101#32, 0#32, 0#32, 0#32, 1#32] ∧
    (AttentionUnit.portCount ⟨[.space 1, .port 9 true 255, .port 9 true 1], false, false, false⟩ 9) = 255 :=
  ⟨work_works rfl (by decide) (by decide), work_works rfl (by decide) (by decide), by decide +kernel⟩

/-- A report from lane 0 waits at PMON. -/
def reported (p : Fin 64) (st : ReportedState) (x : Port) : State :=
  portLine [[.report ⟨0, p, st, true⟩]] ((demo.updLane 0 fun l => { l with held := 31, reportsPending := 1 }).setPmon
    (demo.pmon.setPort p x))

/-- Each of the five clauses: LIVE in UNKNOWN with a hold-down of 500 ms and with 0, LIVE in RECOVERING, DEAD in LIVE,
DEAD in RECOVERING. The credit goes back at once. -/
theorem witness_ReportsAndExpiries_reports :
    ((after .reportTaken (reported 0 .live Port.reset)).port 0).phase = .recovering ∧
    ((after .reportTaken (reported 0 .live Port.reset)).port 0).timer = some 500 ∧
    (let s := reported 0 .live Port.reset
     ((after .reportTaken (s.setPmon { s.pmon with holdDown := 0 })).port 0).live = true) ∧
    (after .reportTaken (reported 0 .live ⟨.live, .none, .recovering, false, some 7, .idle⟩)).port 0
      = ⟨.live, .none, .recovering, false, some 7, .idle⟩ ∧
    (after .reportTaken (reported 9 .dead (demo.port 9))).port 9 = ⟨.dead, .none, .dead, false, none, .running none⟩ ∧
    (after .reportTaken (reported 63 .dead ⟨.live, .none, .recovering, false, some 7, .idle⟩)).port 63
      = ⟨.dead, .none, .dead, false, none, .idle⟩ ∧
    ((after .reportTaken (reported 9 .dead (demo.port 9))).lane 0).sending = some (.credit 1) ∧
    (reported 9 .dead (demo.port 9)).restarting = false ∧
    (after .reportTaken (reported 9 .dead (demo.port 9))).pmon.waiting = [] := by decide +kernel

/-- A report behind the CU's claim waits; of a group it leaves the rest; a timer that a DEAD report stops has no expiry that
waits any more (R76). -/
theorem witness_ReportsAndExpiries_line :
    let r : PortClaim := .report ⟨0, 63, .dead, true⟩
    let s := reported 63 .dead ⟨.live, .none, .recovering, false, some 7, .idle⟩
    let behind := portLine [[.command], [r]] s
    (∀ g rest q, behind.pmon.waiting = g :: rest → .report q ∉ g) ∧ after .reportTaken behind = behind ∧
    (after .reportTaken (portLine [[.command, r]] s)).pmon.waiting = [[.command]] ∧
    (after .reportTaken (portLine [[r], [.expiry 63, .expiry 3]] s)).pmon.waiting = [[.expiry 3]] ∧
    after .reportTaken demo = demo := by
  refine ⟨?_, by decide +kernel⟩
  rintro g rest q ⟨rfl, -⟩
  simp

/-- Two timers run out at 7: each may go first, and the other's expiry is then presented; one at 8 may not. An expiry behind a
report waits, as does one behind the CU's claim. -/
theorem witness_ReportsAndExpiries_expiry :
    let x : Port := ⟨.live, .none, .recovering, false, some 7, .idle⟩
    let s := demo.setPmon (((demo.pmon.setPort 0 x).setPort 63 x).setPort 1 { x with timer := some 8 })
    let behind := portLine [[.report ⟨0, 5, .dead, true⟩]] s
    (s.port 63).timer = some 7 ∧ (s.port 63).phase = .recovering ∧
    (after (.holdDownExpiry 63) s).port 63 = ⟨.live, .none, .live, true, none, .running none⟩ ∧
    (after (.holdDownExpiry 63) s).pmon.now = 7 ∧ (after (.holdDownExpiry 63) s).pmon.waiting = [[.expiry 0]] ∧
    after (.holdDownExpiry 1) s = s ∧ after (.holdDownExpiry 2) s = s ∧
    (after (.holdDownExpiry 63) behind).port 63 = x ∧
    (after (.holdDownExpiry 63) behind).pmon.waiting = [[.report ⟨0, 5, .dead, true⟩], [.expiry 0, .expiry 63]] ∧
    ((run behind [.holdDownExpiry 63, .reportTaken, .holdDownExpiry 63]).port 63).phase = .live ∧
    (s.pmon.advance 6).waiting = [] ∧ (s.pmon.advance 8).waiting = [[.expiry 0, .expiry 1, .expiry 63]] ∧
    ((s.pmon.advance 7).advance 8).waiting = [[.expiry 0, .expiry 63], [.expiry 1]] := by decide +kernel

/-- The pass of port 9 stands at its place (5, 1), then at its end. -/
def passing (cursor : Option (Nat × Nat)) : State :=
  line [[.visit 9]] (demo.setPmon (demo.pmon.setPort 9 ⟨.dead, .none, .dead, false, none, .running cursor⟩))

theorem witness_FailoverPassVisits :
    (passing none).pt.visiting = none ∧ (passing none).ptTakes (.visit 9) = true ∧
    (let s := line [[.refill 3], [.visit 9]] (passing none)
     s.ptTakes (.visit 9) = false ∧ after (.visitClaim 9) s = s) ∧
    ((passing none).setSlot 3 (refillTaken.slot 3)).ptTakes (.visit 9) = false ∧
    ((passing none).pt.withdraw (.visit 9)).nextPlace 9 none = some (5, 1) ∧
    (((passing none).pt.withdraw (.visit 9)).exit? 5).isSome = true ∧
    ((after (.visitClaim 9) (passing none)).pt.set? 1).map (·.allEmpty) = some true ∧
    ((after (.visitClaim 9) (passing none)).port 9).pass = .running (some (5, 1)) ∧
    ((passing none).pt.withdraw (.visit 9)).nextPlace 9 (some (5, 1)) = none ∧
    ((after (.visitClaim 9) (passing (some (5, 1)))).port 9).pass = .idle ∧
    demo.pt.exits.Pairwise (fun a b => a.id < b.id) ∧ (∀ e ∈ demo.pt.exits, e.users.Pairwise (· < ·)) := by
  decide +kernel

/-- The read of a visit behind an expiry of another port: the visit claim is TAKEN until the read has had its turn (R84). -/
theorem witness_FailoverPassVisits_read :
    let s := portLine [[.expiry 3]] (passing none)
    let t := after (.visitClaim 9) s
    s.pmon.admits .read = false ∧ t.pt.visiting = some ⟨9, none, false⟩ ∧ t.pmon.waiting = [[.expiry 3], [.read]] ∧
    t.pt.sets = s.pt.sets ∧ after (.visitClaim 9) t = t ∧
    (after (.visitClaim 9) (portLine [[.read]] t)).pt = (after (.visitClaim 9) (passing none)).pt ∧
    (after (.visitClaim 9) (portLine [[.read]] t)).pmon.waiting = [] := by decide +kernel

/-- With nothing commanded a command's claim that reads two ports is TAKEN and makes a read each millisecond; between them
another port's report may be taken, and the member is recorded by its own read (R84). -/
theorem witness_StepRunsTheFrontCommand_reads :
    let create := [0x00000203#32, 0x01000FFF#32, 0x00050001#32, 0x1FFF000F#32]
    let s := work 0x30 create demo
    s.works 0x30 create ∧ s.pmon.admits .read = true ∧ (portsRead 0x30 create s.pt).drop s.pt.reads.length = [9, 63] ∧
    (idle s).pt.taken = some (.command [true]) ∧ (idle (idle s)).pt.taken = some (.command [true, false]) ∧
    ((run (idle s) [.port 0 9 .dead, .reportTaken, .setCreate]).pt.set? 0).map (·.members)
      = some [⟨5, 1, true⟩, ⟨8191, 15, false⟩] ∧
    (idle (portLine [[.expiry 3]] s)).pt = demo.pt ∧ s.takeRead ≠ s ∧ demo.takeRead = demo :=
  ⟨work_works rfl (by decide) (by decide), by decide +kernel⟩

theorem witness_StepRunsTheFrontCommand :
    (demo.setPending [.grant, .abort]).pending = .grant :: [.abort] ∧ demo.pending = [] ∧
    idle demo = demo.setPmon { demo.pmon with now := 1 } ∧
    (idle (withJob counting)).slot 3 = .running { counting with step := .taken } ∧
    (idle (passing none)).pt.visiting = some ⟨9, none, false⟩ := ⟨rfl, rfl, by decide +kernel⟩

/-- A visit claim is TAKEN while nothing is commanded, and no other claim acts meanwhile. The port goes DOWN: the claim goes
on from its old cursor with the new state, what it returns is discarded, and the pass starts again from none (R82, R83). -/
theorem witness_FailoverPassVisits_taken :
    let x : Port := ⟨.live, .none, .live, true, none, .running none⟩
    let s := idle (line [[.visit 9], [.refill 3]] (demo.setPmon (demo.pmon.setPort 9 x)))
    let t := after .reportTaken (portLine [[.report ⟨0, 9, .dead, false⟩]] s)
    let u := after (.visitClaim 9) t
    s.pt.visiting = some ⟨9, none, false⟩ ∧ s.pt.waiting = [[.refill 3]] ∧ s.ptTakes (.refill 3) = false ∧
    after (.visitClaim 3) s = s ∧ ((after (.visitClaim 9) s).port 9).pass = .running (some (5, 1)) ∧
    t.pt.visiting = some ⟨9, none, true⟩ ∧ t.pt.waiting = [[.refill 3]] ∧ (t.port 9).pass = .running none ∧
    (u.pt.set? 1).map (·.allEmpty) = some true ∧ (u.port 9).pass = .running none ∧
    u.pt.waiting = [[.refill 3], [.visit 9]] ∧ u.pt.visiting = none ∧
    ((after (.visitClaim 9) (visitTaken (some (8191, 0)) true)).pt.waiting = [[.visit 9]]) := by decide +kernel

/-! ### Lanes -/

/-- The demonstration with this lane 3. -/
def withLane (l : Lane) : State := demo.setLanes (demo.lanes.set 3 l)

theorem witness_LaneCommandsAct_links :
    (work 0x50 [0x03000000#32] demo).works 0x50 [0x03000000#32] ∧ (work 0x51 [0#32] demo).works 0x51 [0#32] ∧
    ((demo.lane 3).link = .disabled ∧ (demo.lane 0).link = .up) ∧
    ((after .laneEnable (work 0x50 [0x03000000#32] demo)).lane 3).link = .down ∧
    answer (after .laneEnable (work 0x50 [0x03000000#32] demo)) = some (.ok, [0x01000000#32]) ∧
    ((after .laneEnable (work 0x50 [0x03000000#32] (withLane { Lane.reset with signal := true }))).lane 3).link
      = .aligning ∧
    answer (after .laneEnable (work 0x50 [0#32] demo)) = some (.ok, [0x03000000#32]) ∧
    (after .laneDisable (work 0x51 [0#32] demo)).lane 0 = { Lane.reset with signal := true } ∧
    (after .laneDisable (work 0x51 [0x03000000#32] (withLane { Lane.reset with link := .aligning }))).lane 3
      = Lane.reset ∧
    answer (after .laneDisable (work 0x51 [0x04000000#32] demo)) = some (.badArg, []) :=
  ⟨work_works rfl (by decide) (by decide), work_works rfl (by decide) (by decide), by decide +kernel⟩

/-- Weights 1 and 8 are in range, 0 and 9 are not; LANE READ's words, with the counters cleared. -/
theorem witness_LaneCommandsAct_words :
    (work 0x53 [0x03080000#32] demo).works 0x53 [0x03080000#32] ∧ (work 0x52 [0x00010000#32] demo).works 0x52 [0x00010000#32] ∧
    ((after .laneWeight (work 0x53 [0x03080000#32] demo)).lane 3).weight = 8 ∧
    answer (after .laneWeight (work 0x53 [0x03010000#32] demo)) = some (.ok, []) ∧
    answer (after .laneWeight (work 0x53 [0x03000000#32] demo)) = some (.badArg, []) ∧
    answer (after .laneWeight (work 0x53 [0x03090000#32] demo)) = some (.badArg, []) ∧
    answer (after .laneRead (work 0x52 [0x00010000#32] demo))
      = some (.ok, [0x03010101#32, 0x00002000#32, 0#32, 0#32, 0#32, 0#32, 0#32]) ∧
    AttentionUnit.laneRecord ⟨[.space 1, .lane 3 ⟨true, false, true⟩ 255, .lane 3 ⟨false, false, false⟩ 1], false, false, false⟩ 3
      = (⟨true, false, true⟩, 255) ∧
    demo.au.laneRecord 3 = (⟨false, false, false⟩, 0) ∧
    answer (after .laneRead (work 0x52 [0x03000000#32] (withLane { Lane.reset with overruns := 65535, malformed := 2 })))
      = some (.ok, [0x00010000#32, 0#32, 0#32, 0#32, 0#32, 0xFFFF0000#32, 0x00020000#32]) ∧
    (after .laneRead (work 0x52 [0x03010000#32] (withLane { Lane.reset with overruns := 65535, malformed := 2 }))).lane 3
      = Lane.reset :=
  ⟨work_works rfl (by decide) (by decide), work_works rfl (by decide) (by decide), by decide +kernel⟩

theorem witness_LinkEvents :
    ((withLane { Lane.reset with link := .down }).lane 3).link = .down ∧ demo.dev.refclk = true ∧
    ((after (.signalDetected 3) (withLane { Lane.reset with link := .down })).lane 3).link = .aligning ∧
    (after (.alignmentComplete 3) (withLane { Lane.reset with link := .aligning, signal := true })).lane 3
      = { Lane.reset with link := .up, sending := some (.credit 32), signal := true } ∧
    ((after (.signalLost 3 .signal) (withLane { Lane.reset with link := .aligning, signal := true })).lane 3).link
      = .down ∧
    ((after (.signalLost 0 .signal) demo).lane 0) = { Lane.reset with link := .down } ∧
    (after (.signalLost 0 .signal) demo).au.list = [.lane 0 ⟨false, false, true⟩ 1] ∧
    ((after (.signalLost 0 .alignment) demo).lane 0) = { Lane.reset with link := .aligning, signal := true } := by
  decide +kernel

/-- Without REFCLK a lane stays in DOWN; what R91 does not list for a state leaves the link as it is. -/
theorem witness_LinkEvents_unlisted :
    let unclocked := fun s : State => s.setDev { s.dev with refclk := false }
    let down := withLane { Lane.reset with link := .down }
    let aligning := withLane { Lane.reset with link := .aligning, signal := true }
    (after (.signalDetected 3) (unclocked down)).lane 3 = { Lane.reset with link := .down, signal := true } ∧
    (after (.signalDetected 3) demo).lane 3 = { Lane.reset with signal := true } ∧
    after (.signalDetected 3) aligning = aligning ∧ after (.alignmentComplete 3) down = down ∧
    after (.alignmentComplete 0) demo = demo ∧ after (.signalLost 3 .alignment) aligning = aligning ∧
    (after (.signalLost 3 .signal) (withLane { Lane.reset with link := .down, signal := true })).lane 3
      = { Lane.reset with link := .down } ∧
    ((after (.signalLost 0 .alignment) (unclocked demo)).lane 0).link = .down := by decide +kernel

/-- An entry of a queue. -/
def waiting (tag : Byte) : Entry := ⟨tag, some ⟨0, true, 0x0046#16, .narrow 0x0A010203#32⟩, .waiting⟩

/-- Lane 3 UP with this queue. -/
def queued (es : List Entry) : State := withLane { Lane.reset with link := .up, held := 1, queue := es, signal := true }

/-- 31 entries and 32; a LOOKUP without a key is queued malformed. -/
theorem witness_LookupsAreQueued :
    let full := queued (List.replicate 32 (waiting 0))
    let space := queued (List.replicate 31 (waiting 0))
    (space.lane 3).queue.length < 32 ∧ 32 ≤ (full.lane 3).queue.length ∧ messageKind [0x1400007F#32, 0x00003D1C#32] = 1 ∧
    ((after (.lookupN 3 255#8 0 true 0x0046#16 0x0A010203#32) space).lane 3).queue
      = List.replicate 31 (waiting 0) ++ [waiting 255#8] ∧
    ((after (.lookupW 3 255#8 15 false 0#16 1#128) space).lane 3).queue.getLast?
      = some ⟨255#8, some ⟨15, false, 0#16, .wide 1#128⟩, .waiting⟩ ∧
    ((after (.malformedMessage 3 [0x1400007F#32, 0x00003D1C#32]) space).lane 3).queue.getLast?
      = some ⟨0x7F#8, none, .waiting⟩ ∧
    (after (.lookupN 3 255#8 0 true 0x0046#16 0x0A010203#32) full).lane 3
      = { (full.lane 3) with held := 0, overruns := 1 } ∧
    (after (.lookupN 3 255#8 0 true 0x0046#16 0x0A010203#32) full).au.list = [.lane 3 ⟨true, false, false⟩ 1] := by
  decide +kernel

/-- 31 reports pending and 32. -/
theorem witness_ReportsAndBadMessages :
    let up : Lane := { Lane.reset with link := .up, held := 1, reportsPending := 31 }
    let full := withLane { up with reportsPending := 32 }
    (after (.port 3 63 .dead) (withLane up)).pmon.waiting = [[.report ⟨3, 63, .dead, true⟩]] ∧
    (after (.port 3 63 .dead) (portLine [[.command]] (withLane up))).pmon.reports = [⟨3, 63, .dead, true⟩] ∧
    ((after (.port 3 63 .dead) (withLane up)).lane 3) = { up with held := 0, reportsPending := 32 } ∧
    ((after (.port 3 63 .dead) full).lane 3) = { up with held := 0, reportsPending := 32, overruns := 1 } ∧
    (after (.port 3 63 .dead) full).pmon.waiting = [] ∧
    ((after (.checkFailure 3 [1#32, 2#32]) (withLane up)).lane 3)
      = { up with held := 0, checkErrors := 1, sending := some (.credit 1) } ∧
    (after (.checkFailure 3 [1#32, 2#32]) (withLane up)).au.list = [.lane 3 ⟨false, true, false⟩ 1] ∧
    messageKind [0x30000000#32, 0xA829#32] ≠ 1 ∧
    ((after (.malformedMessage 3 [0x30000000#32, 0xA829#32]) (withLane up)).lane 3)
      = { up with held := 0, malformed := 1, sending := some (.credit 1) } := by decide +kernel

/-- Each arrival on a lane that is ALIGNING is no message. -/
theorem witness_ReportsAndBadMessages_notUp :
    let s := withLane { Lane.reset with link := .aligning, signal := true }
    (s.lane 3).link ≠ .up ∧
    [Instr.lookupN 3 0#8 0 false 0#16 0#32, .lookupW 3 0#8 0 false 0#16 0#128, .port 3 9 .dead, .checkFailure 3 [1#32],
      .malformedMessage 3 [0x30000000#32, 0xA829#32]].all (fun c => arrivalLane c == some 3 && after c s == s) = true := by
  decide +kernel

/-- A result: no route. -/
def noRoute : Result := ⟨.discard, .noRoute, false, none, none⟩

theorem witness_SendsEnd :
    let up : Lane := { Lane.reset with link := .up }
    let done : Entry := ⟨1#8, none, .done noRoute⟩
    ((after (.creditSent 3) (withLane { up with sending := some (.credit 32), queue := [done] })).lane 3)
      = { up with held := 32, queue := [done], sending := some .result } ∧
    ((after (.resultSent 3) (withLane { up with sending := some .result, queue := [done, done], owed := 2 })).lane 3)
      = { up with held := 1, queue := [done], resultsSent := 1, sending := some (.credit 2) } ∧
    ((after (.resultSent 3) (withLane { up with sending := some .result, queue := [done, waiting 2] })).lane 3).sending
      = none ∧
    up.startNext = up ∧ Lane.reset.startNext = Lane.reset := by decide +kernel

/-! ### The search -/

/-- A key under 10.1.0.0/16 and one under 10.0.0.0/8 alone, hash 0046h: bucket 6. -/
def ask16 : Ask := ⟨0, true, 0x0046#16, .narrow 0x0A010203#32⟩
def ask8 : Ask := ⟨0, true, 0x0046#16, .narrow 0x0A020203#32⟩

theorem witness_GrantChooses_probe :
    let ps := [0x00010100#32, 0x0000FFFF#32, 0x0A010203#32]
    (work 0x60 ps demo).works 0x60 ps ∧ probeFields ps = some ⟨0, true, 0xFFFF#16, .narrow 0x0A010203#32⟩ ∧
    (after .probe (work 0x60 ps demo)).su.probe = probeFields ps ∧
    (after .probe (work 0x60 ps demo)).cu = .busy (0x60000003#32 :: ps) .probing ∧
    (after .grant (after .probe (work 0x60 ps demo))).su.lookup
      = some ⟨.probe, none, ⟨0, true, 0xFFFF#16, .narrow 0x0A010203#32⟩, .matching⟩ ∧
    answer (after .probe (work 0x60 [0x00010100#32, 0x00010000#32, 0#32] demo)) = some (.badArg, []) ∧
    after .grant demo = demo :=
  ⟨work_works rfl (by decide) (by decide), by decide +kernel⟩

/-- Current lane 3 with its allowance, then without: the cyclic order comes back to it with its weight reloaded, less
one; a malformed entry is answered at once. -/
theorem witness_GrantChooses_lane :
    let s := queued [⟨1#8, none, .done noRoute⟩, waiting 2, waiting 3]
    let cur := fun a => s.setSu { s.su with current := 3, allowance := a }
    ((s.lane 3).link = .up ∧ s.su.probe = none ∧ s.su.lookup = none ∧ s.su.current = 0 ∧
      (3 : Fin 4).val = ((0 : Fin 4).val + 1 + 2) % 4) ∧
    (after .grant s).su.current = 3 ∧ (after .grant s).su.allowance = 0 ∧
    ((after .grant s).lane 3).queue.map (·.status) = [.done noRoute, .granted, .waiting] ∧
    (after .grant (cur 2)).su.allowance = 1 ∧ (after .grant (cur 0)).su.allowance = 0 ∧
    (after .grant (queued [⟨9#8, none, .waiting⟩])).su.lookup = none ∧
    (((after .grant (queued [⟨9#8, none, .waiting⟩])).lane 3).queue, ((after .grant (queued [⟨9#8, none, .waiting⟩])).lane 3).sending)
      = ([⟨9#8, none, .done ⟨.discard, .badReq, false, none, none⟩⟩], some .result) := by decide +kernel

/-- Lane 3's entry is searched with this ask, at this stage. -/
def searching (a : Ask) (stage : Stage) : State :=
  let s := queued [{ waiting 2 with status := .granted }]
  s.setSu { s.su with lookup := some ⟨.lane 3, some 2#8, a, stage⟩ }

/-- A match that goes on to its resolution and is marked; no route; a DISABLED domain; DISCARD; a step claim that 16
lookups have passed. -/
theorem witness_LookupClaimMatches :
    let s := searching ask16 .matching
    let fair := fun n => (s.setJe { s.je with slots := s.je.slots.set 2 (.running counting) }).setRs { s.rs with fairness := n }
    s.restarting = false ∧ s.rsFree = true ∧
    (let taken := s.setSlot 2 (surveyTaken.slot 3)
     taken.rsFree = false ∧ after .lookupClaim taken = taken) ∧ s.rs.longestMatch 0 ask16.key = some route16 ∧
    (after .lookupClaim s).su.lookup.map (·.stage) = some (.resolving 16 (.exit 5) 1804#16 .discard) ∧
    (after .lookupClaim s).pt.waiting = [] ∧
    (let command := s.setCu (.busy [0x11000001#32, 0#32] .waiting)
     command.commandAtRouteStore = true ∧ after .lookupClaim command = command) ∧
    (s.setCu (.busy [0x11000001#32, 0#32] .held)).commandAtRouteStore = false ∧
    (s.setCu (.busy [0x92000004#32] (.writingMarks none))).commandAtRouteStore = true ∧
    ((after .lookupClaim s).rs.find? route16.ident).map (·.hits) = some 4 ∧
    ((after .lookupClaim (searching { ask16 with key := .narrow 0#32 } .matching)).lane 3).queue.map (·.status)
      = [.done noRoute] ∧
    ((after .lookupClaim (searching { ask16 with domain := 15 } .matching)).lane 3).queue.map (·.status)
      = [.done ⟨.discard, .noDomain, false, none, none⟩] ∧
    ((after .lookupClaim (searching { ask16 with key := .wide 1#128 } .matching)).lane 3).queue.map (·.status)
      = [.done ⟨.discard, .route, false, some (0, 0#16), none⟩] ∧
    (fair 16).je.stepClaimWaits = true ∧ after .lookupClaim (fair 16) = fair 16 ∧
    (after .lookupClaim (fair 15)).rs.fairness = 16 := by decide +kernel

/-- A lookup that resolves this target in this Path Table. -/
def resolving (t : Target) (pt : PathTable) : State :=
  (searching ask16 (.resolving 16 t 1804#16 .control)).setPt pt

/-- The status that the resolution claim leaves the entry in. -/
def resolved (s : State) : Option EntryStatus := ((after .resolutionClaim s).lane 3).queue.head?.map (·.status)

/-- Every clause: a FREE set; set 1's own bucket; its backup's; no bucket anywhere; a FREE exit; an exit DOWN; an exit
UP. -/
theorem witness_ResolutionClaimResolves :
    let fields : ExitFields := ⟨5, 9, 0x0A1B2C3D4E5F#48, some 1234, 1500⟩
    let swapped := demo.pt.updSet 1 fun p => { p with map := set2.map }
    let backed := swapped.updSet 2 fun p => { p with map := set1.map }
    (line [[.visit 3]] (resolving (.exit 5) demo.pt)).ptAdmits .resolution = false ∧
    after .resolutionClaim (line [[.visit 3]] (resolving (.exit 5) demo.pt))
      = line [[.visit 3], [.resolution]] (resolving (.exit 5) demo.pt) ∧
    (resolving (.exit 5) demo.pt).ptAdmits .resolution = true ∧
    resolved (line [[.resolution], [.visit 3]] (resolving (.exit 7) demo.pt))
      = some (.done ⟨.control, .stale, false, some (16, 1804#16), none⟩) ∧
    resolved (resolving (.pathSet 3) demo.pt) = some (.done ⟨.control, .stale, false, some (16, 1804#16), none⟩) ∧
    resolved (resolving (.pathSet 1) demo.pt)
      = some (.done ⟨.forward, .route, false, some (16, 1804#16), some fields⟩) ∧
    resolved (resolving (.pathSet 1) backed)
      = some (.done ⟨.forward, .route, true, some (16, 1804#16), some fields⟩) ∧
    resolved (resolving (.pathSet 1) swapped) = some (.done ⟨.discard, .noPath, false, some (16, 1804#16), none⟩) ∧
    resolved (resolving (.pathSet 2) demo.pt) = some (.done ⟨.control, .noPath, false, some (16, 1804#16), none⟩) ∧
    resolved (resolving (.exit 7) demo.pt) = some (.done ⟨.control, .stale, false, some (16, 1804#16), none⟩) ∧
    resolved (resolving (.exit 6) demo.pt) = some (.done ⟨.control, .noPath, false, some (16, 1804#16), none⟩) ∧
    resolved (resolving (.exit 5) demo.pt)
      = some (.done ⟨.forward, .route, false, some (16, 1804#16), some fields⟩) := by decide +kernel

/-- The read of a direct exit's port behind an expiry: the resolution claim is TAKEN until the read has had its turn; a path set
reads no port (R84, R119). -/
theorem witness_ResolutionClaimResolves_read :
    let s := portLine [[.expiry 3]] (resolving (.exit 5) demo.pt)
    let t := after .resolutionClaim s
    s.pmon.admits .read = false ∧ t.pt.taken = some .resolution ∧ t.pmon.waiting = [[.expiry 3], [.read]] ∧
    t.ptAdmits .command = false ∧ after .resolutionClaim t = t ∧
    resolved (portLine [[.read]] t) = resolved (resolving (.exit 5) demo.pt) ∧
    (after .resolutionClaim (portLine [[.read]] t)).pt = demo.pt ∧
    resolved (portLine [[.expiry 3]] (resolving (.pathSet 1) demo.pt)) = resolved (resolving (.pathSet 1) demo.pt) := by
  decide +kernel

/-- A port goes DOWN between the two claims of a lookup, and its pass takes the last bucket before the resolution claim is
presented (R117, R121): the lookup finds the map EMPTY. Presented before the pass, it finds the map as it stood. -/
theorem test_pass_between_the_claims :
    let down : List Instr := [.port 0 9 .dead, .reportTaken]
    let status := fun cs => ((run (searching ask8 .matching) cs).lane 3).queue.map (·.status)
    let forwarded := [EntryStatus.done ⟨.forward, .route, false, some (8, 77#16), some exit5.fields⟩]
    status (.lookupClaim :: down ++ [.visitClaim 9, .visitClaim 9, .resolutionClaim])
      = [.done ⟨.discard, .noPath, false, some (8, 77#16), none⟩] ∧
    status [.lookupClaim, .resolutionClaim] = forwarded ∧
    status (.lookupClaim :: .resolutionClaim :: down) = forwarded := by
  decide +kernel

theorem witness_ResultIsHandedBack :
    ((searching ask16 .matching).lane 3).queue = [] ++ ({ waiting 2 with status := .granted } : Entry) :: [] ∧
    (((searching ask16 .matching).handBack (.lane 3) 6 noRoute).lane 3).sending = some .result ∧
    (∀ x ∈ (demo.lane 0).queue, x.status ≠ .granted) ∧
    (let s := demo.setCu (.busy [0x60000003#32] .probing)
     answer (s.handBack .probe 63 noRoute) = some (.ok, [0x0880003F#32, 0#32, 0#32, 0#32, 0#32])) ∧
    (⟨.forward, .route, true, some (128, 0#16), none⟩ : Result).word0 15 255 = 0xF46080FF#32 := by decide +kernel

/-! ### Jobs -/

/-- A REPOINT of exit 5's routes to set 4095. -/
def repointWords : List Word := [0x01030800#32, 0#32, 0x02000005#32, 0x01000FFF#32, 0#32, 0#32, 0#32, 0#32]
def repointSpec : JobSpec := .survey ⟨none, none, none, some (.exit 5), none⟩ (.repoint (.pathSet 4095))

/-- The lowest IDLE slot; the pin of a REPOINT; no slot; a FREE new target; a cover key with a one beyond its length. -/
theorem witness_JobsStartAndRotate_start :
    let s := work 0x70 repointWords demo
    let none' := work 0x70 repointWords (demo.setJe { demo.je with slots := Vector.replicate 4 (.ended counting) })
    s.works 0x70 repointWords ∧ jobSpecOf repointWords = some repointSpec ∧ repointSpec.keyOk = true ∧ demo.slot 0 = .idle ∧
    answer (after .jobStart s) = some (.ok, [0#32]) ∧
    (after .jobStart s).slot 0 = .running ⟨repointSpec, none, 0, 0, 0, .waiting, none⟩ ∧
    ((after .jobStart s).pt.set? 4095).map (·.pinRefs) = some 1 ∧
    answer (after .jobStart none') = some (.noSlot, []) ∧
    answer (after .jobStart (work 0x70 (repointWords.set 3 0x01000003#32) demo)) = some (.noTarget, []) ∧
    answer (after .jobStart (work 0x70 [0x01010608#32, 0x00010000#32, 0#32, 0#32, 0x00FFFFFF#32, 0#32, 0#32, 0#32] demo))
      = some (.badKey, []) ∧
    answer (after .jobStart (work 0x70 [0x02000000#32, 0x0FFF0FFF#32] demo)) = some (.ok, [0#32]) ∧
    (after .jobStart (work 0x70 [0x02000000#32, 0x0FFF0FFF#32] demo)).pt.waiting = [[.refill 0]] :=
  ⟨work_works rfl (by decide) (by decide), by decide +kernel⟩

/-- Slot 3 is next after slot 3 when no other is eligible; JOB READ of an IDLE, a RUNNING and an ENDED slot. -/
theorem witness_JobsStartAndRotate_read :
    let j : Job := { counting with step := .none }
    ((withJob j).slot 3 = .running j ∧ (3 : Fin 4).val = ((withJob j).je.last.val + 1 + 3) % 4) ∧
    ((withJob j).presentStep false).slot 3 = .running counting ∧
    (work 0x72 [0x03000000#32] (withJob j)).works 0x72 [0x03000000#32] ∧
    answer (after .jobRead (work 0x72 [0#32] (withJob j))) = some (.ok, [0#32]) ∧
    answer (after .jobRead (work 0x72 [0x03000000#32] (withJob j)))
      = some (.ok, 0x01010000#32 :: (List.replicate 3 0#32 ++ 0x01010000#32 :: List.replicate 12 0#32)) ∧
    answer (after .jobRead (work 0x72 [0x03000000#32]
        (demo.setSlot 3 (.ended ⟨.refill 7 4095, some (.set 8), 1, 2, 3, .none, some .cancelled⟩))))
      = some (.ok, [0x02020201#32, 1#32, 2#32, 3#32, 0x00070FFF#32, 8#32]) ∧
    answer (after .jobRead (work 0x72 [0x04000000#32] demo)) = some (.badArg, []) :=
  ⟨by decide +kernel, by decide +kernel, work_works rfl (by decide) (by decide), by decide +kernel⟩

/-- A SURVEY of everything in slot 3, WAITING at a cursor, and what its step leaves of the counts and the table. -/
def surveying (a : Action) (c : Option Identity) : State :=
  withJob { counting with spec := .survey ⟨none, none, none, none, none⟩ a, cursor := c.map .route }

/-- The counts of slot 3's job. -/
def counts (s : State) : Option (Nat × Nat × Nat) :=
  match s.slot 3 with
  | .running j | .ended j => some (j.visited, j.matched, j.acted)
  | .idle => none

/-- The first route, the one after a cursor, and the end. -/
theorem witness_SurveySteps_positions :
    let s := surveying .count none
    s.slot 3 = .running counting ∧ (∀ m, m ≠ 3 → (s.slot m).stepping = false) ∧ s.su.claimWaits = false ∧
    demo.rs.routes = [] ++ route8 :: [route16, routeWide] ∧ demo.rs.successor route8.ident = some route16 ∧
    counts (after .stepClaim s) = some (1, 1, 0) ∧
    (after .stepClaim (surveying .count (some routeWide.ident))).slot 3
      = .ended { counting with cursor := some (.route routeWide.ident), step := .none, outcome := some .done } ∧
    (after .stepClaim (surveying .count (some routeWide.ident))).au.list = [.job 3 .survey .done 0 0 0] ∧
    (let busy := s.setSu { s.su with lookup := some ⟨.probe, none, ask16, .matching⟩ }
     after .stepClaim busy = busy ∧
     (let command := s.setCu (.busy [0x94000000#32] .waiting)
      command.commandAtRouteStore = true ∧ after .stepClaim command = command) ∧
     counts (after .stepClaim (busy.setRs { busy.rs with fairness := 16 })) = some (1, 1, 0)) := by decide +kernel

/-- A TAKEN step is finished whatever waits. With nothing commanded a WAITING step is TAKEN, unless a lookup or a command
goes before it. -/
theorem witness_SurveySteps_taken :
    let lookup := fun s : State => s.setSu { s.su with lookup := some ⟨.probe, none, ask16, .matching⟩ }
    let s := surveying .count none
    counts (after .stepClaim (lookup surveyTaken)) = some (1, 1, 0) ∧
    (idle s).slot 3 = .running { counting with step := .taken } ∧ (idle s).pmon.now = 1 ∧
    (idle (lookup s)).slot 3 = .running counting ∧
    (idle (s.setCu (.busy [0x94000000#32] .waiting))).slot 3 = .running counting ∧
    (idle (s.setCu (.busy [0x92000004#32] (.writingMarks none)))).slot 3 = .running counting ∧
    (idle ((lookup s).setRs { s.rs with fairness := 16 })).slot 3 = .running { counting with step := .taken } := by
  decide +kernel

/-- A step that withdraws a route to a path set, or repoints one, while a visit is TAKEN: the step is TAKEN, and its reference
claim waits; then it is finished. One that changes no reference is made at once (R16, R36). -/
theorem witness_SurveySteps_reference :
    let visited := fun s : State => s.setPt (visitTaken none false).pt
    [Action.retire, .repoint (.exit 8191)].all (fun a =>
      let s := after .stepClaim (visited (surveying a none))
      s.slot 3 == .running { counting with spec := .survey ⟨none, none, none, none, none⟩ a, step := .taken }
        && s.pt.waiting == [[.reference]] && s.rs == demo.rs && !s.rsFree && after .stepClaim s == s
        && (after .stepClaim (s.setPt (line [[.reference]] demo).pt)) == after .stepClaim (surveying a none)) = true ∧
    [Action.count, .sweep, .clearMarks, .repoint (.pathSet 1)].all (fun a =>
      counts (after .stepClaim (visited (surveying a none))) == some (1, 1, 0)) = true ∧
    counts (after .stepClaim (visited (surveying .retire (some route16.ident)))) = some (1, 1, 1) ∧
    (visited demo).ptAdmits .reference = false := by decide +kernel

/-- The actions on the LEARNED route 10.1.0.0/16, whose mark is SET, and on a STATIC one. -/
theorem witness_SurveySteps_actions :
    let at16 := fun a => after .stepClaim (surveying a (some route8.ident))
    let cleared := fun s : State => s.setRs (s.rs.updRoute route16.ident fun x => { x with mark := false })
    (at16 .retire).rs.routes = [route8, routeWide] ∧ counts (at16 .retire) = some (1, 1, 1) ∧
    counts (at16 (.repoint (.exit 5))) = some (1, 1, 0) ∧
    ((at16 (.repoint (.pathSet 4095))).rs.find? route16.ident).map (·.target) = some (.pathSet 4095) ∧
    (at16 (.repoint (.pathSet 4095))).pt.exits.map (·.routeRefs) = [0, 0, 0] ∧
    ((at16 .sweep).rs.find? route16.ident).map (fun r => (r.mark, r.hits)) = some (false, 3) ∧
    (after .stepClaim (cleared (surveying .sweep (some route8.ident)))).rs.routes = [route8, routeWide] ∧
    counts (after .stepClaim (surveying .sweep none)) = some (1, 1, 0) ∧
    ((at16 .clearMarks).rs.find? route16.ident).map (fun r => (r.mark, r.hits)) = some (false, 0) ∧
    counts (after .stepClaim (surveying .clearMarks none)) = some (1, 1, 0) := by decide +kernel

/-- The filter: a cover that agrees in its 9 bits and one that does not; another domain leaves nothing to visit. -/
theorem witness_SurveySteps_filter :
    let filtered := fun f : Filter => after .stepClaim (withJob { counting with spec := .survey f .count, cursor := some (.route route8.ident) })
    counts (filtered ⟨none, some .narrow, some (.narrow 0x0A000000#32, 9), some (.exit 5), some .learned⟩)
      = some (1, 1, 0) ∧
    counts (filtered ⟨none, some .narrow, some (.narrow 0x0A800000#32, 9), none, none⟩) = some (1, 0, 0) ∧
    counts (filtered ⟨none, some .narrow, some (.narrow 0x0A010000#32, 17), none, none⟩) = some (1, 0, 0) ∧
    counts (filtered ⟨some 15, none, none, none, none⟩) = some (0, 0, 0) ∧
    counts (filtered ⟨none, none, none, none, some .static⟩) = some (1, 0, 0) := by decide +kernel

/-- A REFILL of sets 0 to 1 in slot 3, at this cursor, its claim waiting. -/
def refilling (c : Option Nat) (s : State) : State :=
  (s.setSlot 3 (.running { counting with spec := .refill 0 1, cursor := c.map .set })).setPt
    { s.pt with waiting := [[.refill 3]] }

theorem witness_RefillSteps :
    (refilling none lopsided).ptTakes (.refill 3) = true ∧
    (let s := line [[.visit 9], [.refill 3]] (refilling none lopsided)
     s.ptTakes (.refill 3) = false ∧ after .refillClaim s = s ∧ (idle s).slot 3 = s.slot 3) ∧ lopsided.pt.set? 0 = none ∧
    (lopsided.pt.set? 1).map (·.map.length) = some 64 ∧ (∀ m, m ≠ 3 → ((refilling none lopsided).slot m).stepping = false) ∧
    counts (after .refillClaim (refilling none lopsided)) = some (0, 0, 0) ∧
    (after .refillClaim (refilling none lopsided)).pt.waiting = [[.refill 3]] ∧
    (after .refillClaim (refilling (some 0) lopsided)).au.list = [.job 3 .refill .done 1 1 1] ∧
    ((after .refillClaim (refilling (some 0) lopsided)).pt.set? 1).map (bucketCount ·.map 6) = some 32 ∧
    (after .refillClaim (refilling (some 0) demo)).au.list = [.job 3 .refill .done 1 1 0] := by decide +kernel

/-- JOB CANCEL while the refill of the range's last set is TAKEN: the set is refilled and counted, and the job is
CANCELLED (R143, R145). -/
theorem test_cancel_of_a_taken_refill :
    let s := idle (refilling (some 0) lopsided)
    let c := after .jobCancel (work 0x71 [0x03000000#32] s)
    let t := after .refillClaim c
    s.pt.waiting = [] ∧ c.cu = .busy [0x71000001#32, 0x03000000#32] (.cancelling 3) ∧
    t.au.list = [.job 3 .refill .cancelled 1 1 1] ∧ (t.pt.set? 1).map (bucketCount ·.map 6) = some 32 ∧
    answer t = some (.ok, [0x02000000#32, 1#32, 1#32, 1#32]) := by decide +kernel

/-- A REPOINT job that has ended but for its pin, in slot 3, with its pin claim waiting. -/
def pinned : State :=
  (withJob ⟨repointSpec, none, 2, 1, 1, .none, some .done⟩).setPt
    { (demo.pt.countPin (· + 1) (.pathSet 4095)) with waiting := [[.pin 3]] }

theorem witness_JobsEnd_pin :
    pinned.ptTakes (.pin 3) = true ∧
    (let s := line [[.visit 0], [.pin 3]] pinned
     s.ptTakes (.pin 3) = false ∧ after (.pinClaim 3) s = s) ∧ repointSpec.pin = some (.pathSet 4095) ∧
    (after (.pinClaim 3) pinned).slot 3 = .ended ⟨repointSpec, none, 2, 1, 1, .none, some .done⟩ ∧
    (after (.pinClaim 3) pinned).pt = demo.pt ∧ (after (.pinClaim 3) pinned).au.list = [.job 3 .survey .done 2 1 1] ∧
    (let s := pinned.setCu (.busy [0x71000001#32, 0x03000000#32] (.cancelling 3))
     answer (after (.pinClaim 3) s) = some (.ok, [0x01000000#32, 2#32, 1#32, 1#32])) ∧
    ((withJob { counting with outcome := none }).finishStep 3 counting).slot 3 = .running counting ∧
    ((withJob counting).finishStep 3 { counting with spec := repointSpec, outcome := some .done }).pt.waiting
      = [[.pin 3]] := by decide +kernel

/-- Slot 3 ends its step, and its pin claim is taken, while a JOB CANCEL of slot 0 waits for that slot's TAKEN step; and
while one of slot 3 does. -/
theorem witness_JobsEnd_cancelling :
    let other := fun s : State =>
      (s.setSlot 0 (.running { counting with step := .none, outcome := some .cancelled })).setCu
        (.busy [0x71000001#32, 0#32] (.cancelling 0))
    let own := (withJob counting).setCu (.busy [0x71000001#32, 0x03000000#32] (.cancelling 3))
    ((other (withJob counting)).finishStep 3 { counting with outcome := some .done }).cu = (other demo).cu ∧
    (after (.pinClaim 3) (other pinned)).slot 3 = .ended ⟨repointSpec, none, 2, 1, 1, .none, some .done⟩ ∧
    (after (.pinClaim 3) (other pinned)).cu = (other demo).cu ∧
    answer (own.finishStep 3 { counting with outcome := some .cancelled, visited := 7 })
      = some (.ok, [0x02000000#32, 7#32, 0#32, 0#32]) ∧
    (after .jobCancel (work 0x71 [0x03000000#32] surveyTaken)).slot 3
      = .running { counting with step := .taken, outcome := some .cancelled } := by decide +kernel

/-- JOB CANCEL of a WAITING job, of one already decided, of a REPOINT, and of an IDLE slot. -/
theorem witness_JobsEnd_cancel :
    let s := work 0x71 [0x03000000#32] (withJob { counting with visited := 4 })
    s.works 0x71 [0x03000000#32] ∧ s.slot 3 = .running { counting with visited := 4 } ∧
    answer (after .jobCancel s) = some (.ok, [0x02000000#32, 4#32, 0#32, 0#32]) ∧
    (after .jobCancel s).au.list = [.job 3 .survey .cancelled 4 0 0] ∧
    (after .jobCancel (work 0x71 [0x03000000#32] pinned)).cu = .busy [0x71000001#32, 0x03000000#32] (.cancelling 3) ∧
    (after .jobCancel (work 0x71 [0x03000000#32] (withJob { counting with spec := repointSpec }))).pt.waiting
      = [[.pin 3]] ∧
    answer (after .jobCancel (work 0x71 [0#32] (withJob counting))) = some (.notRunning, []) ∧
    answer (after .jobCancel (work 0x71 [0x03000000#32] (demo.setSlot 3 (.ended counting)))) = some (.notRunning, []) :=
  ⟨work_works rfl (by decide) (by decide), by decide +kernel⟩

/-! ### Attention -/

/-- A count at 254 rises to 255 and holds there; a new source goes to the end; a masked kind is dropped. -/
theorem witness_PostingsAreTaken :
    let au : AttentionUnit := ⟨[.space 1] ++ .port 63 true 254 :: [.lane 3 ⟨false, true, false⟩ 255], false, false, false⟩
    (au.take (.port 63 false)).list = [.space 1, .port 63 false 255, .lane 3 ⟨false, true, false⟩ 255] ∧
    (au.take (.lane 3 .linkLost)).list = [.space 1, .port 63 true 254, .lane 3 ⟨false, true, true⟩ 255] ∧
    (au.take (.space 65536)).list = [.space 65536, .port 63 true 254, .lane 3 ⟨false, true, false⟩ 255] ∧
    (au.take (.port 0 true)).list = au.list ++ [.port 0 true 1] ∧
    (au.take (.lane 0 .overrun)).list = au.list ++ [.lane 0 ⟨true, false, false⟩ 1] ∧
    (au.take (.job 0 .refill .done 1 2 3)).list = au.list ++ [.job 0 .refill .done 1 2 3] ∧
    ({ au with maskPort := true }.take (.port 63 false)).list = au.list ∧
    ({ au with maskLane := true, maskSpace := true }.take (.lane 3 .linkLost)).list = au.list ∧
    ({ au with maskSpace := true }.take (.space 7)).list = au.list ∧
    (({ au with maskPort := true, maskLane := true, maskSpace := true } : AttentionUnit).masks (.job 0 .refill .done 1 2 3))
      = false ∧
    (∀ x ∈ [Record.space 1] ++ [.lane 3 ⟨false, true, false⟩ 255], x.source ≠ (Posting.port 63 false).record.source) := by
  decide +kernel

/-- COLLECT of each kind, and of an empty list (R199). -/
theorem witness_CollectAndMask :
    let held := fun rs => work 0x80 [] ((demo.setSlot 3 (.ended counting)).setAu { demo.au with list := rs })
    (held []).works 0x80 [] ∧ (work 0x81 [0x01020100#32] demo).works 0x81 [0x01020100#32] ∧
    answer (after .collect (held [])) = some (.empty, []) ∧
    answer (after .collect (held [.port 9 false 1, .space 1, .space 2])) = some (.ok, [0x01090002#32, 1#32]) ∧
    answer (after .collect (held [.job 3 .survey .done 5 4 4]))
      = some (.ok, [0x02030000#32, 0x01010000#32, 5#32, 4#32, 4#32]) ∧
    (after .collect (held [.job 3 .survey .done 5 4 4])).slot 3 = .idle ∧
    answer (after .collect (held [.lane 3 ⟨true, false, true⟩ 255])) = some (.ok, [0x03030000#32, 0x050000FF#32]) ∧
    answer (after .collect (held [.space 65536])) = some (.ok, [0x04000000#32, 65536#32]) ∧
    answer (after .attentionMask (work 0x81 [0x01020100#32] demo)) = some (.ok, [5#32]) ∧
    answer (after .attentionMask (work 0x81 [0x03000000#32] demo)) = some (.badArg, []) :=
  ⟨work_works rfl (by decide) (by decide), work_works rfl (by decide) (by decide), by decide +kernel⟩

/-! ### RESTART and the resets -/

theorem witness_RestartEmptiesTables :
    let s := work 0x91 [] (marked 100 50 false)
    let r := after .restart s
    s.works 0x91 [] ∧ r.rs = { RouteStore.reset with high := 100, low := 50 } ∧ r.pt = PathTable.reset ∧
    (r.cu = .busy [0x91000000#32] .restarting ∧ r.pt.waiting = [] ∧ r.su.lookup = none ∧ r.su.probe = none ∧
      r.pmon.waiting = []) ∧
    (∀ n, (r.slot n).stepping = false) ∧ r.lane 0 = { Lane.reset with signal := true } ∧
    answer (after .restartComplete r) = some (.ok, []) :=
  ⟨work_works rfl (by decide) (by decide), by decide +kernel⟩

/-- RESTART while a RETIRE step is TAKEN, its reference claim waiting behind a TAKEN visit: the lanes, the SU, the JE and the AU
are cleared and the job is dropped; the visit and the step finish, and no JOB posting and no count comes of it; then the tables
go, and PMON when the report ahead of RESTART's claim has been taken (R27, R51, R84, R89, R149, R182). -/
theorem witness_RestartEmptiesTables_waits :
    let job : Job := { counting with spec := .survey ⟨none, none, none, none, none⟩ .retire }
    let s := work 0x91 [] (portLine [[.report ⟨0, 9, .dead, true⟩]]
      (after .stepClaim ((surveying .retire none).setPt (visitTaken (some (8191, 0)) true).pt)))
    let r := after .restart s
    let done := run r [.visitClaim 9, .stepClaim]
    let tables := after .restart done
    let left := run tables [.reportTaken, .restart]
    s.works 0x91 [] ∧ s.rsFree = false ∧ r.cu = .busy [0x91000000#32] .restartLeft ∧
    r.je = ⟨Vector.replicate 4 .idle, 3, [{ job with step := .taken }]⟩ ∧ r.rs = demo.rs ∧ r.pt.waiting = [[.reference]] ∧
    r.pmon.waiting = [[.report ⟨0, 9, .dead, false⟩]] ∧ r.ptFree = false ∧ after .restart r = r ∧
    done.rs.routes = [route16, routeWide] ∧ done.je = ⟨Vector.replicate 4 .idle, 3, [{ job with step := .none }]⟩ ∧
    done.au.list = [] ∧ tables.cu = .busy [0x91000000#32] .restartPorts ∧ tables.rs = RouteStore.reset ∧
    tables.pt = PathTable.reset ∧ tables.je = JobEngine.reset ∧
    tables.pmon.waiting = [[.report ⟨0, 9, .dead, false⟩], [.command]] ∧ after .restart tables = tables ∧
    left.cu = .busy [0x91000000#32] .restarting ∧ left.pmon = PortMonitor.reset ∧ left.au.list = [] ∧
    left.pt = PathTable.reset ∧ answer (after .restartComplete left) = some (.ok, []) :=
  ⟨work_works rfl (by decide) (by decide), by decide +kernel⟩

/-- RESTART withdraws the refill, pin and resolution claims that wait, and leaves those of PMON and of the Route Store; a refill
and a resolution claim that are TAKEN finish, and nothing comes back of them (R128, R149). -/
theorem witness_RestartEmptiesTables_units :
    let restart := fun s => after .restart (work 0x91 [] s)
    let refilled := restart (portLine [[.expiry 3]] (idle (refilling (some 0) lopsided)))
    let resolved := restart (portLine [[.expiry 3]] (after .resolutionClaim
      (portLine [[.expiry 3]] (resolving (.exit 5) demo.pt))))
    (restart (line [[.visit 3], [.refill 3, .pin 1], [.resolution], [.reference]] surveyTaken)).pt.waiting
      = [[.visit 3], [.reference]] ∧
    (restart ((surveying .count none).setSlot 2 (surveyTaken.slot 3))).je.dropped.map (·.step) = [.taken, .none] ∧
    refilled.cu = .busy [0x91000000#32] .restartLeft ∧
    ((after .refillClaim refilled).pt.set? 1).map (bucketCount ·.map 6) = some 32 ∧
    (after .refillClaim refilled).au.list = [] ∧ (after .refillClaim refilled).ptFree = true ∧
    resolved.pt.taken = some .resolution ∧ resolved.su.lookup = none ∧ after .resolutionClaim resolved = resolved ∧
    (after .resolutionClaim (portLine [[.read]] resolved)).pt.taken = none ∧
    ((after .resolutionClaim (portLine [[.read]] resolved)).lane 3).queue = [] ∧
    (after (.holdDownExpiry 3) (restart demo)) = restart demo := by decide +kernel

/-- The demonstration in RESTART, at this progress. -/
def restartAt (p : Progress) (s : State) : State := s.setCu (.busy [0x91000000#32] p)

/-- From the parts on each claim would act, were it not for the holds; a report handed to PMON is dropped. -/
theorem witness_RestartEmptiesTables_holds :
    [Progress.restartLeft, .restartPorts, .restarting].all (fun p =>
      [((.grant : Instr), queued [waiting 2]), (.lookupClaim, searching ask16 .matching), (.pinClaim 3, pinned)].all (fun x =>
        after x.1 (restartAt p x.2) == restartAt p x.2 && !(after x.1 x.2 == x.2))
      && (restartAt p demo).restarting && (restartAt p demo).post (.space 1) == restartAt p demo) = true ∧
    [Progress.restartPorts, .restarting].all (fun p =>
      [((.resolutionClaim : Instr), resolving (.exit 5) demo.pt), (.stepClaim, surveyTaken), (.refillClaim, refillTaken),
        (.visitClaim 9, passing none), (.visitClaim 9, visitTaken none false)].all (fun x =>
        after x.1 (restartAt p x.2) == restartAt p x.2 && !(after x.1 x.2 == x.2)) && (restartAt p demo).tablesHeld) = true ∧
    (let s := reported 9 .dead (demo.port 9)
     after .reportTaken (restartAt .restarting s) = restartAt .restarting s ∧
     (after .reportTaken (restartAt .restartPorts s)).pmon.waiting = []) ∧
    (after (.port 0 9 .dead) (restartAt .restarting demo)).pmon = demo.pmon ∧
    ((after (.port 0 9 .dead) (restartAt .restarting demo)).lane 0).reportsPending = 1 := by decide +kernel

/-- A low of 999 ns and of 1000; a supply lost; the way back to READY. -/
theorem witness_ResetsAndClearing :
    after (.hardwareReset 999) demo = demo ∧ (after (.hardwareReset 1000) demo).dev = ⟨.held, true, true, true, true, true⟩ ∧
    (run demo [.hardwareReset 1000, .resetRelease]).dev.phase = .clearing ∧
    (run demo [.supplyInvalid .vddl, .resetRelease]).dev.phase = .held ∧
    (run demo [.supplyInvalid .vdd, .supplyValid]).dev.phase = .clearing ∧
    (run demo [.supplyInvalid .vddio, .hardwareReset 1000, .supplyValid]).dev.phase = .held ∧
    (run demo [.hardwareReset 1000, .resetRelease, .startupClearingEnd]).rs = RouteStore.reset ∧
    (run demo [.hardwareReset 1000, .resetRelease, .wordRead, .startupClearingEnd]).mp
      = { ManagementPort.reset with lost := true } ∧
    after .startupClearingEnd demo = demo := by decide +kernel

/-! ### The laws -/

/-- The demonstration meets every law, a REPOINT job running among its references. -/
def running : State := (work 0x80 [] (pinned.setMp { ManagementPort.reset with state := .working, command := [0x80000000#32] })).setPending
  [.pinClaim 3, .collect]

theorem witness_RouteStoreLawKept : running.rs.lawful ∧ step running = .next (after (.pinClaim 3) (running.setPending [.collect])) :=
  ⟨witness_lawful_store, rfl⟩

theorem witness_BucketMapLawKept : running.pt.lawful := by
  refine ⟨by decide +kernel, by decide +kernel, ?_⟩
  have h : ∀ p ∈ running.pt.sets, p.members.length ≤ 16 ∧ (p.members.map (·.exit)).Nodup ∧
      (∀ m ∈ p.members, 1 ≤ m.weight ∧ m.weight ≤ 15) ∧ p.map.length = 64 ∧
      (∀ b ∈ p.map, ∀ e ∈ b, ∃ m ∈ p.members, m.exit = e ∧ m.up = true) ∧
      (none ∈ p.map → ∀ m ∈ p.members, m.up = false) := by decide +kernel
  exact fun p hp => let ⟨a, b, c, d, e, f⟩ := h p hp; ⟨a, b, c, d, fun x hx => e _ hx x rfl, f⟩

theorem witness_ReferencesLawKept_attention : running.attentionLawful := by
  have h : ∀ n, (match running.slot n with | .ended _ => true | _ => false) = false := by decide +kernel
  have hl : running.au.list = [] := by decide +kernel
  refine ⟨by rw [hl]; exact .nil, fun n j hj => ?_, fun n k o v m a hr => ?_⟩
  · have := h n
    rw [hj] at this
    cases this
  · rw [hl] at hr
    cases hr

theorem witness_ReferencesLawKept : running.referencesAgree := by
  refine ⟨by decide +kernel, by decide +kernel, by decide +kernel, ?_, ?_⟩
  · have h : ∀ p ∈ running.pt.sets, (∀ m ∈ p.members, (running.pt.exit? m.exit).isSome) ∧
        ∀ b ∈ p.backup, b ≠ p.id ∧ (running.pt.set? b).isSome := by decide +kernel
    exact fun p hp => ⟨(h p hp).1, fun b hb => (h p hp).2 b hb⟩
  · have h : ∀ j ∈ running.je.jobs, (match j.spec.pin with | some t => running.pt.stands t | none => true) = true := by
      decide +kernel
    intro j hj t ht
    have := h j hj
    simpa only [ht] using this

theorem witness_PortLawKept : ∀ p, (running.port p).lawful := by
  unfold Port.lawful
  decide +kernel

theorem witness_LaneLawKept : (searching ask16 .matching).lanesLawful := by
  have h : ∀ n, queueInOrder ((searching ask16 .matching).lane n).queue = true ∧
      ((searching ask16 .matching).lane n).queue.length ≤ 32 ∧ ((searching ask16 .matching).lane n).held ≤ 32 ∧
      ((searching ask16 .matching).lane n).owed ≤ 32 ∧ ((searching ask16 .matching).lane n).reportsPending ≤ 32 ∧
      1 ≤ ((searching ask16 .matching).lane n).weight ∧ ((searching ask16 .matching).lane n).weight ≤ 8 ∧
      ((searching ask16 .matching).lane n).requestsTaken ≤ 4294967295 ∧
      ((searching ask16 .matching).lane n).resultsSent ≤ 4294967295 ∧
      ((searching ask16 .matching).lane n).overruns ≤ 65535 ∧ ((searching ask16 .matching).lane n).checkErrors ≤ 65535 ∧
      ((searching ask16 .matching).lane n).malformed ≤ 65535 := by
    decide +kernel
  have g : ∀ n, ((searching ask16 .matching).lane n).hasGranted = true → n = 3 := by decide +kernel
  exact ⟨h, fun n hn => ⟨_, rfl, by rw [g n hn]⟩⟩

/-- The demonstration's lane 0 holds 32 credits; the client spends one. -/
theorem witness_CreditLawKept : demo.creditsConserved ∧
    ∀ c rest, (demo.setPending [.port 0 63 .live]).pending = c :: rest → (demo.setPending [.port 0 63 .live]).clientConforms c := by
  constructor
  · unfold State.creditsConserved
    decide +kernel
  · rintro c rest ⟨⟩ n ⟨⟩ -
    decide +kernel

/-- Slot 3 ENDED, its JOB record the second of the list. -/
def uncollected : State :=
  (demo.setSlot 3 (.ended { counting with outcome := some .done })).setAu
    { demo.au with list := [.space 1, .job 3 .survey .done 0 0 0] }

theorem witness_AttentionLawKept : uncollected.attentionLawful := by
  have h : ∀ n, n ≠ 3 → uncollected.slot n = .idle := by decide +kernel
  refine ⟨by decide +kernel, ?_, ?_⟩
  · intro n j hj
    by_cases hn : n = 3
    · subst hn
      cases hj
      exact ⟨.job 3 .survey .done 0 0 0, by decide +kernel, rfl⟩
    · rw [h n hn] at hj
      cases hj
  · intro n k o v m a hr
    have hr : Record.job n k o v m a ∈ [.space 1, .job 3 .survey .done 0 0 0] := hr
    simp only [List.mem_cons, List.not_mem_nil, reduceCtorEq, Record.job.injEq, false_or, or_false] at hr
    obtain ⟨rfl, rfl, rfl, rfl, rfl, rfl⟩ := hr
    exact ⟨_, rfl, rfl⟩

theorem witness_ManagementLawKept : running.managementLawful := by
  refine ⟨by decide +kernel, ?_, by decide +kernel, by decide +kernel, by decide +kernel⟩
  rintro ws p ⟨⟩
  rfl

/-- An answer of 31 words, and PORT READ's 30 before its last. -/
theorem witness_ManagementLawKept_words :
    (demo.setCu (.busy [0x33000001#32, 0x00010000#32] (.answered ⟨.ok, List.replicate 31 7#32⟩))).answersFit ∧
    (demo.setCu (.busy [0x41000001#32, 0x09000000#32] (.counting 9 (List.replicate 30 7#32) 1))).answersFit := by
  constructor <;> rintro ws p ⟨⟩ <;> decide

end Sys2Proof.Tests
end

section
/-! PROOFS. The readers of codes and byte fields (R194, R195), DOMAIN SET and DOMAIN READ (R14, R15), and the match (R5). -/

namespace Sys2Proof.Machine

/-! ### Readers of codes and numbers (R194) -/

@[simp] theorem inRange_val {n : Nat} (v : Fin n) : inRange n v.val = some v := by
  simp [inRange]

theorem inRange_eq_none {n v : Nat} : inRange n v = none ↔ n ≤ v := by
  simp [inRange]

@[simp] theorem enabledOf_enabledCode (b : Bool) : enabledOf (enabledCode b) = some b := by
  cases b <;> rfl

theorem enabledOf_eq_none {n : Nat} : enabledOf n = none ↔ n ∉ [1, 2] := by
  unfold enabledOf
  split <;> simp_all

@[simp] theorem dropVerdictOf_code (v : DropVerdict) : dropVerdictOf v.code = some v := by
  cases v <;> rfl

theorem dropVerdictOf_eq_none {n : Nat} : dropVerdictOf n = none ↔ n ∉ [2, 3] := by
  unfold dropVerdictOf
  split <;> simp_all

theorem enabledCode_lt (b : Bool) : enabledCode b < 256 := by
  cases b <;> decide

theorem DropVerdict.code_lt (v : DropVerdict) : v.code < 256 := by
  cases v <;> decide

/-! ### The fields of a packed word -/

section
variable {a b c d : Nat} (ha : a < 256) (hb : b < 256) (hc : c < 256) (hd : d < 256)
include ha hb hc hd

theorem pack8_toNat : (pack8 a b c d).toNat = a * 2 ^ 24 + b * 2 ^ 16 + c * 2 ^ 8 + d := by
  rw [pack8, BitVec.toNat_ofNat, Nat.mod_eq_of_lt (by omega)]

theorem bits_pack8_31_24 : bits (pack8 a b c d) 31 24 = a := by
  rw [bits, pack8_toNat ha hb hc hd, Nat.shiftRight_eq_div_pow]
  omega

theorem bits_pack8_23_16 : bits (pack8 a b c d) 23 16 = b := by
  rw [bits, pack8_toNat ha hb hc hd, Nat.shiftRight_eq_div_pow]
  omega

theorem bits_pack8_15_0 : bits (pack8 a b c d) 15 0 = c * 2 ^ 8 + d := by
  rw [bits, pack8_toNat ha hb hc hd, Nat.shiftRight_eq_div_pow]
  omega

end

/-! ### DOMAIN SET and DOMAIN READ (R14, R15) -/

theorem exec_domainSet : ∀ s : State, exec .domainSet s = .next (runCommand 0x10 domainSetWork s) := by
  intros; rfl

theorem exec_domainRead : ∀ s : State, exec .domainRead s = .next (runCommand 0x11 domainReadWork s) := by
  intros; rfl

theorem domainSetWork_ok {ps : List Word} {d : Fin 16} {en : Bool} {miss : DropVerdict} (s : State)
    (hd : bits (param ps 0) 31 24 = d.val) (he : bits (param ps 0) 23 16 = enabledCode en)
    (hm : bits (param ps 0) 15 8 = miss.code) :
    domainSetWork ps s
      = answerOk (s.setRs (s.rs.updDomain d fun x => { x with enabled := en, miss := miss })) [] := by
  simp [domainSetWork, hd, he, hm]

theorem domainSetWork_badArg {ps : List Word} (s : State)
    (h : 15 < bits (param ps 0) 31 24 ∨ bits (param ps 0) 23 16 ∉ [1, 2] ∨ bits (param ps 0) 15 8 ∉ [2, 3]) :
    domainSetWork ps s = refuse s .badArg := by
  unfold domainSetWork
  dsimp only
  split
  · rename_i hd he hm
    rcases h with h | h | h
    · rw [inRange_eq_none.mpr h] at hd
      cases hd
    · rw [enabledOf_eq_none.mpr h] at he
      cases he
    · rw [dropVerdictOf_eq_none.mpr h] at hm
      cases hm
  · rfl

theorem domainReadWork_ok {ps : List Word} {d : Fin 16} (s : State) (hd : bits (param ps 0) 31 24 = d.val) :
    domainReadWork ps s = answerOk s [pack8 (enabledCode (s.rs.domain d).enabled) (s.rs.domain d).miss.code 0 0,
      wordOf (s.rs.domain d).narrowCount, wordOf (s.rs.domain d).wideCount] := by
  simp [domainReadWork, hd]

theorem domainReadWork_badArg {ps : List Word} (s : State) (h : 15 < bits (param ps 0) 31 24) :
    domainReadWork ps s = refuse s .badArg := by
  simp [domainReadWork, inRange_eq_none.mpr h]

/-- Settles O12: the work on the parameter words is one of two replies, and the step leaves that reply's answer. -/
theorem domainSetAndRead : Obligations.DomainSetAndRead := by
  refine ⟨fun s ps hw => ⟨fun d en miss hd he hm => ?_, fun h => ?_⟩, fun s ps hw => ⟨fun h => ?_, fun d hd => ?_⟩⟩
  · rw [exec_domainSet, runCommand_answered hw (domainSetWork_ok s hd he hm) rfl]
  · rw [exec_domainSet, runCommand_refused hw (domainSetWork_badArg s h)]
  · rw [exec_domainRead, runCommand_refused hw (domainReadWork_badArg s h)]
  · have he := enabledCode_lt (s.rs.domain d).enabled
    have hm := (s.rs.domain d).miss.code_lt
    have h0 : 0 < 256 := by decide
    refine ⟨_, bits_pack8_31_24 he hm h0 h0, bits_pack8_23_16 he hm h0 h0, bits_pack8_15_0 he hm h0 h0, ?_⟩
    rw [exec_domainRead, runCommand_answered hw (domainReadWork_ok s hd) rfl]
    rfl

/-! ### The match (R5) -/

/-- The model compares the keys' leading parts as shifted words; R5 compares them bit by bit. -/
theorem Route.candidate_iff (r : Route) (d : Fin 16) (k : Key) : r.candidate d k = true ↔ r.matchesKey d k := by
  simp only [Route.candidate, Route.matchesKey, Route.family, Identity.family, Bool.and_eq_true, beq_iff_eq,
    Key.agrees_iff]

theorem Route.candidate_eq_false_iff (r : Route) (d : Fin 16) (k : Key) :
    r.candidate d k = false ↔ ¬ r.matchesKey d k := by
  rw [← r.candidate_iff d k, Bool.not_eq_true]

/-- Settles O19, from the two outcomes of `longestMatch` and the comparison of a candidate bit by bit. -/
theorem longestPrefixMatch : Obligations.LongestPrefixMatch := by
  intro rs d k
  constructor
  · intro r hr
    obtain ⟨hmem, hcand, hmax⟩ := RouteStore.longestMatch_some hr
    exact ⟨hmem, (r.candidate_iff d k).mp hcand, fun x hx hk => hmax x hx ((x.candidate_iff d k).mpr hk)⟩
  · rw [RouteStore.longestMatch_none]
    simp only [Route.candidate_eq_false_iff]

end Sys2Proof.Machine
end

section
/-! PROOFS. EXIT CREATE and EXIT DELETE (R39, R42), and SET DELETE (R46). -/

namespace Sys2Proof.Machine

/-! ### Record IDs in a parameter word (R196) -/

theorem exitIdOf_of_le {w : Word} (h : bits w 31 16 ≤ 8191) : exitIdOf w = some (bits w 31 16) := if_pos h

theorem setIdOf_of_le {w : Word} (h : bits w 31 16 ≤ 4095) : setIdOf w = some (bits w 31 16) := if_pos h

/-! ### EXIT CREATE (R39) -/

theorem exec_exitCreate : ∀ s : State, exec .exitCreate s = .next (runCommand 0x20 exitCreateWork s) := by
  intros; rfl

section
variable {ps : List Word} {e : Exit} {s : State} (hf : exitCreateFields ps = some e)
include hf

theorem exitCreateWork_active (he : (s.pt.exit? e.id).isSome = true) : exitCreateWork ps s = refuse s .exists := by
  simp [exitCreateWork, hf, he]

theorem exitCreateWork_free (he : s.pt.exit? e.id = none) :
    exitCreateWork ps s = answerOk (s.setPt { s.pt with exits := insertBy Exit.id e s.pt.exits }) [] := by
  simp [exitCreateWork, hf, he]

end

/-! ### EXIT DELETE (R42) -/

theorem exec_exitDelete : ∀ s : State, exec .exitDelete s = .next (runCommand 0x24 exitDeleteWork s) := by
  intros; rfl

section
variable {ps : List Word} {e : Exit} {s : State} (hid : bits (param ps 0) 31 16 ≤ 8191)
include hid

theorem exitDeleteWork_free (he : s.pt.exit? (bits (param ps 0) 31 16) = none) :
    exitDeleteWork ps s = refuse s .absent := by
  simp [exitDeleteWork, exitIdOf_of_le hid, he]

theorem exitDeleteWork_referenced (he : s.pt.exit? (bits (param ps 0) 31 16) = some e) (hr : 0 < e.references) :
    exitDeleteWork ps s = refuse s .inUse := by
  simp [exitDeleteWork, exitIdOf_of_le hid, he, hr]

theorem exitDeleteWork_unreferenced (he : s.pt.exit? (bits (param ps 0) 31 16) = some e) (hr : e.references = 0) :
    exitDeleteWork ps s = answerOk
      (s.setPt { s.pt with exits := s.pt.exits.filter fun x => x.id != bits (param ps 0) 31 16 }) [] := by
  simp [exitDeleteWork, exitIdOf_of_le hid, he, hr]

end

/-- Settles O20: each of the two commands' work is one of its replies, and the step leaves that reply's answer. -/
theorem exitCreateAndDelete : Obligations.ExitCreateAndDelete := by
  constructor
  · refine fun s ps e hw hf => ⟨fun he => ?active, fun he => ⟨_, insertBy_perm Exit.id e s.pt.exits, ?created⟩⟩
    case active => rw [exec_exitCreate, runCommand_refused hw (exitCreateWork_active hf he)]
    case created => rw [exec_exitCreate, runCommand_answered hw (exitCreateWork_free hf he) rfl]
  · rintro s ps _ hw rfl hid
    refine ⟨fun he => ?absent, fun e he => ⟨fun hr => ?inUse, fun hr => ?deleted⟩⟩
    case absent => rw [exec_exitDelete, runCommand_refused hw (exitDeleteWork_free hid he)]
    case inUse => rw [exec_exitDelete, runCommand_refused hw (exitDeleteWork_referenced hid he hr)]
    case deleted => rw [exec_exitDelete, runCommand_answered hw (exitDeleteWork_unreferenced hid he hr) rfl]

/-! ### The releases of a backup and of members (R32, R33) -/

section
variable (pt : PathTable)

@[simp] theorem PathTable.releaseBackup_exit? (b : Option Nat) (j : Nat) :
    (pt.releaseBackup b).exit? j = pt.exit? j := by
  cases b <;> rfl
@[simp] theorem PathTable.releaseBackup_waiting (b : Option Nat) : (pt.releaseBackup b).waiting = pt.waiting := by
  cases b <;> rfl
@[simp] theorem PathTable.releaseBackup_taken (b : Option Nat) : (pt.releaseBackup b).taken = pt.taken := by
  cases b <;> rfl

theorem PathTable.releaseBackup_set? (b : Option Nat) (j : Nat) :
    (pt.releaseBackup b).set? j = (pt.set? j).map fun q =>
      if b = some j then { q with backupRefs := q.backupRefs - 1 } else q := by
  cases b with
  | none => simp [PathTable.releaseBackup]
  | some i =>
    rw [PathTable.releaseBackup, PathTable.updSet_set?]
    · simp only [Option.some.injEq, eq_comm]
    · intro; rfl

theorem PathTable.leave_exit? (set x j : Nat) :
    (pt.leave set x).exit? j = (pt.exit? j).map fun e =>
      if j = x then { e with memberRefs := e.memberRefs - 1, users := e.users.filter (· != set) } else e :=
  pt.updExit_exit? x j fun _ => rfl

end

/-- Members that leave a set change nothing but exits. -/
theorem PathTable.foldl_leave_frame (set : Nat) (ms : List Member) (pt : PathTable) :
    let left := ms.foldl (fun t m => t.leave set m.exit) pt
    left.sets = pt.sets ∧ left.waiting = pt.waiting ∧ left.taken = pt.taken := by
  induction ms generalizing pt with
  | nil => exact ⟨rfl, rfl, rfl⟩
  | cons m ms ih => exact ih (pt.leave set m.exit)

/-- Each exit is left once, so one release reaches it whatever the order of the members. -/
theorem PathTable.foldl_leave_exit? (set : Nat) {ms : List Member} (hn : (ms.map (·.exit)).Nodup) (pt : PathTable)
    (j : Nat) :
    (ms.foldl (fun t m => t.leave set m.exit) pt).exit? j = (pt.exit? j).map fun e =>
      if j ∈ ms.map (·.exit) then
        { e with memberRefs := e.memberRefs - 1, users := e.users.filter (· != set) } else e := by
  induction ms generalizing pt with
  | nil => simp
  | cons m ms ih =>
    obtain ⟨hm, hn⟩ := List.nodup_cons.mp hn
    rw [List.foldl_cons, ih hn, leave_exit?, Option.map_map]
    congr 1
    funext e
    by_cases hj : j = m.exit
    · subst hj
      simp [hm]
    · simp [hj]

/-! ### SET DELETE (R46) -/

section
variable (pt : PathTable) (p : PathSet)

@[simp] theorem PathTable.deleteSet_waiting : (pt.deleteSet p).waiting = pt.waiting := by
  obtain ⟨-, hw, -⟩ := foldl_leave_frame p.id p.members (pt.releaseBackup p.backup)
  exact hw.trans (pt.releaseBackup_waiting p.backup)

@[simp] theorem PathTable.deleteSet_taken : (pt.deleteSet p).taken = pt.taken := by
  obtain ⟨-, -, ht⟩ := foldl_leave_frame p.id p.members (pt.releaseBackup p.backup)
  exact ht.trans (pt.releaseBackup_taken p.backup)

theorem PathTable.deleteSet_set? (j : Nat) :
    (pt.deleteSet p).set? j = if j = p.id then none else (pt.set? j).map fun q =>
      if p.backup = some j then { q with backupRefs := q.backupRefs - 1 } else q := by
  obtain ⟨hs, -, -⟩ := foldl_leave_frame p.id p.members (pt.releaseBackup p.backup)
  rw [← releaseBackup_set?]
  simp only [deleteSet, set?, find?_filter_ne PathSet.id, hs]

theorem PathTable.deleteSet_exit? (hn : (p.members.map (·.exit)).Nodup) (j : Nat) :
    (pt.deleteSet p).exit? j = (pt.exit? j).map fun e =>
      if j ∈ p.members.map (·.exit) then
        { e with memberRefs := e.memberRefs - 1, users := e.users.filter (· != p.id) } else e := by
  rw [← pt.releaseBackup_exit? p.backup, ← foldl_leave_exit? p.id hn]
  rfl

end

theorem exec_setDelete : ∀ s : State, exec .setDelete s = .next (runCommand 0x32 setDeleteWork s) := by
  intros; rfl

section
variable {ps : List Word} {p : PathSet} {s : State} (hid : bits (param ps 0) 31 16 ≤ 4095)
include hid

theorem setDeleteWork_free (hp : s.pt.set? (bits (param ps 0) 31 16) = none) :
    setDeleteWork ps s = refuse s .absent := by
  simp [setDeleteWork, setIdOf_of_le hid, hp]

theorem setDeleteWork_referenced (hp : s.pt.set? (bits (param ps 0) 31 16) = some p) (hr : 0 < p.references) :
    setDeleteWork ps s = refuse s .inUse := by
  simp [setDeleteWork, setIdOf_of_le hid, hp, hr]

theorem setDeleteWork_unreferenced (hp : s.pt.set? (bits (param ps 0) 31 16) = some p) (hr : p.references = 0) :
    setDeleteWork ps s = answerOk (s.setPt (s.pt.deleteSet p)) [] := by
  simp [setDeleteWork, setIdOf_of_le hid, hp, hr]

end

/-- Settles O25: the work's replies, and the records of `deleteSet` read one by one. The record found has the ID it was
looked up by, so `deleteSet` takes the command's own set out of the table and out of the user lists. -/
theorem setDeleteReleases : Obligations.SetDeleteReleases := by
  rintro s ps _ hw rfl hid
  refine ⟨fun hp => ?absent, fun p hp => ⟨fun hr => ?inUse, fun hr hn => ?deleted⟩⟩
  case absent => rw [exec_setDelete, runCommand_refused hw (setDeleteWork_free hid hp)]
  case inUse => rw [exec_setDelete, runCommand_refused hw (setDeleteWork_referenced hid hp hr)]
  case deleted =>
    obtain ⟨-, hpid⟩ := PathTable.set?_some hp
    rw [← hpid]
    refine ⟨s.pt.deleteSet p, ?_, s.pt.deleteSet_waiting p, s.pt.deleteSet_taken p, fun j hj => ?_,
      s.pt.deleteSet_exit? p hn, ?_⟩
    · rw [PathTable.deleteSet_set?, if_pos rfl]
    · rw [PathTable.deleteSet_set?, if_neg hj]
    · rw [exec_setDelete, runCommand_answered hw (setDeleteWork_unreferenced hid hp hr) rfl]

end Sys2Proof.Machine
end

section
/-! PROOFS. The law of a bucket map (R30, R55) under the fill, loss and gain rules and the changes of one path set. The law
reads of a member list only its limits and which exits its UP members name, so both are stated once, of the lists. -/

namespace Sys2Proof.Machine

/-! ### The law of one path set, in its two parts -/

/-- The exits that the members recorded UP name, in list order. -/
def upExits (ms : List Member) : List Nat := (ms.filter (·.up)).map (·.exit)

/-- The limits of a member list (R30). -/
def membersLawful (ms : List Member) : Prop :=
  ms.length ≤ Config.maxMembers ∧ (ms.map (·.exit)).Nodup ∧ ∀ m ∈ ms, 1 ≤ m.weight ∧ m.weight ≤ 15

/-- The law of a map whose set has its UP members on the exits `up`: each bucket names one of them, and is EMPTY only when
there are none (R55). -/
def mapLawful (up : List Nat) (map : List (Option Nat)) : Prop :=
  map.length = Config.buckets ∧ (∀ e, some e ∈ map → e ∈ up) ∧ (none ∈ map → up = [])

theorem mem_upExits {ms : List Member} {e : Nat} : e ∈ upExits ms ↔ ∃ m ∈ ms, m.exit = e ∧ m.up = true := by
  simp only [upExits, List.mem_map, List.mem_filter]
  exact exists_congr fun m => ⟨fun ⟨⟨hm, hu⟩, he⟩ => ⟨hm, he, hu⟩, fun ⟨hm, he, hu⟩ => ⟨⟨hm, hu⟩, he⟩⟩

theorem upExits_eq_nil {ms : List Member} : upExits ms = [] ↔ ∀ m ∈ ms, m.up = false := by
  simp [upExits, List.filter_eq_nil_iff]

theorem PathSet.lawful_iff (p : PathSet) :
    p.lawful ↔ membersLawful p.members ∧ mapLawful (upExits p.members) p.map := by
  simp only [PathSet.lawful, membersLawful, mapLawful, mem_upExits, upExits_eq_nil, and_assoc]

/-! ### Member lists -/

/-- A change of members that keeps their exits and gives weights in range keeps the limits. -/
theorem membersLawful_map {ms : List Member} {f : Member → Member} (h : membersLawful ms)
    (hf : ∀ m ∈ ms, (f m).exit = m.exit ∧ 1 ≤ (f m).weight ∧ (f m).weight ≤ 15) : membersLawful (ms.map f) := by
  obtain ⟨hl, hn, -⟩ := h
  refine ⟨by simpa using hl, ?_, ?_⟩
  · have hexit : (ms.map f).map (·.exit) = ms.map (·.exit) := by
      rw [List.map_map]
      exact List.map_congr_left fun m hm => (hf m hm).1
    rwa [hexit]
  · intro k hk
    obtain ⟨m, hm, rfl⟩ := List.mem_map.mp hk
    exact (hf m hm).2

theorem membersLawful_concat {ms : List Member} {m : Member} (h : membersLawful ms) (hl : ms.length < Config.maxMembers)
    (hn : m.exit ∉ ms.map (·.exit)) (hw : 1 ≤ m.weight ∧ m.weight ≤ 15) : membersLawful (ms ++ [m]) := by
  obtain ⟨-, hnodup, hweight⟩ := h
  refine ⟨by simpa using hl, ?_, fun k hk => ?_⟩
  · simpa using hnodup.concat hn
  · rcases List.mem_append.mp hk with hk | hk
    · exact hweight k hk
    · rwa [List.mem_singleton.mp hk]

theorem membersLawful_filter {ms : List Member} (h : membersLawful ms) (stay : Member → Bool) :
    membersLawful (ms.filter stay) := by
  obtain ⟨hl, hn, hw⟩ := h
  exact ⟨(List.length_filter_le _ _).trans hl, hn.sublist (List.filter_sublist.map _),
    fun m hm => hw m (List.mem_of_mem_filter hm)⟩

/-- Marking a member keeps the limits of the list. -/
theorem membersLawful_mark {ms : List Member} (h : membersLawful ms) (x : Nat) (up : Bool) :
    membersLawful (ms.map fun m => if m.exit == x then { m with up := up } else m) := by
  refine membersLawful_map h fun m hm => ?_
  obtain ⟨-, -, hweight⟩ := h
  split <;> exact ⟨rfl, hweight m hm⟩

@[simp] theorem upExits_append (ms ns : List Member) : upExits (ms ++ ns) = upExits ms ++ upExits ns := by
  simp [upExits]

/-- The UP members other than those on one exit name the UP exits other than it. -/
theorem upExits_filter_ne (ms : List Member) (x : Nat) :
    ((ms.filter fun m => m.up && m.exit != x).map (·.exit)) = (upExits ms).filter (· != x) := by
  simp only [upExits, List.filter_map, List.filter_filter, Function.comp_def, Bool.and_comm]

/-- Members that leave an exit leave it out of the UP exits. -/
theorem upExits_leave (ms : List Member) (x : Nat) :
    upExits (ms.filter (·.exit != x)) = (upExits ms).filter (· != x) := by
  rw [← upExits_filter_ne, upExits, List.filter_filter]

/-- Marking a member DOWN takes its exit out of the UP exits. -/
theorem upExits_markDown (ms : List Member) (x : Nat) :
    upExits (ms.map fun m => if m.exit == x then { m with up := false } else m) = (upExits ms).filter (· != x) := by
  rw [← upExits_leave]
  induction ms with
  | nil => rfl
  | cons m ms ih =>
    by_cases hx : m.exit = x <;> by_cases hu : m.up = true <;> simp_all [upExits]

/-- Marking a member UP takes no exit out of the UP exits. -/
theorem upExits_subset_markUp (ms : List Member) (x : Nat) :
    upExits ms ⊆ upExits (ms.map fun m => if m.exit == x then { m with up := true } else m) := by
  intro e he
  obtain ⟨m, hm, rfl, hu⟩ := mem_upExits.mp he
  refine mem_upExits.mpr ⟨_, List.mem_map_of_mem hm, ?_⟩
  split <;> simp [hu]

/-- A weight has no part in the UP exits. -/
theorem upExits_reweigh (ms : List Member) (x k : Nat) :
    upExits (ms.map fun m => if m.exit == x then { m with weight := k } else m) = upExits ms := by
  induction ms with
  | nil => rfl
  | cons m ms ih =>
    by_cases hx : m.exit = x <;> by_cases hu : m.up = true <;> simp_all [upExits]

/-! ### Maps -/

/-- With weights of at least 1 every UP member has its place in a pass of the fill rule. -/
theorem mem_fillPass_iff_mem_upExits {ms : List Member} (h : membersLawful ms) {e : Nat} :
    e ∈ fillPass ms ↔ e ∈ upExits ms := by
  obtain ⟨-, -, hw⟩ := h
  rw [mem_fillPass, mem_upExits]
  constructor
  · rintro ⟨m, hm, hu, -, he⟩
    exact ⟨m, hm, he, hu⟩
  · rintro ⟨m, hm, he, hu⟩
    exact ⟨m, hm, hu, Nat.ne_of_gt (hw m hm).1, he⟩

theorem fillMap_lawful {ms : List Member} (h : membersLawful ms) : mapLawful (upExits ms) (fillMap ms) := by
  refine ⟨fillMap_length ms, fun e he => ?_, fun hn => ?_⟩
  · rcases mem_fillMap he with ⟨x, hx, hb⟩ | ⟨-, hb⟩
    · cases hb
      exact (mem_fillPass_iff_mem_upExits h).mp hx
    · cases hb
  · rcases mem_fillMap hn with ⟨x, -, hb⟩ | ⟨hp, -⟩
    · cases hb
    · refine List.eq_nil_iff_forall_not_mem.mpr fun e he => ?_
      rw [← mem_fillPass_iff_mem_upExits h, hp] at he
      cases he

/-- A map that names somebody stays lawful when further members are recorded UP. -/
theorem mapLawful_mono {up up' : List Nat} {map : List (Option Nat)} (h : mapLawful up map) (hsub : up ⊆ up')
    (hnamed : ∃ e, some e ∈ map) : mapLawful up' map := by
  obtain ⟨hl, hs, hn⟩ := h
  obtain ⟨e, he⟩ := hnamed
  refine ⟨hl, fun e he => hsub (hs e he), fun hnone => absurd (hs e he) ?_⟩
  rw [hn hnone]
  exact List.not_mem_nil

/-- At a loss the lost member's buckets go to the other UP members, or are EMPTY when there are none (R59). -/
theorem reassign_lawful {up : List Nat} {counts : List (Nat × Nat)} {map : List (Option Nat)} {x : Nat}
    (h : mapLawful up map) (hx : x ∈ up) (hc : counts.map (·.1) = up.filter (· != x)) :
    mapLawful (up.filter (· != x)) (reassign x counts map) := by
  obtain ⟨hl, hs, hn⟩ := h
  refine ⟨by simpa using hl, fun e he => ?_, fun hnone => ?_⟩
  · rcases mem_reassign he with ⟨hm, hne⟩ | ⟨c, hcm, hb⟩ | ⟨-, hb⟩
    · exact List.mem_filter.mpr ⟨hs e hm, by simpa using hne⟩
    · cases hb
      rw [← hc]
      exact List.mem_map_of_mem hcm
    · cases hb
  · rcases mem_reassign hnone with ⟨hm, -⟩ | ⟨c, -, hb⟩ | ⟨hnil, -⟩
    · rw [hn hm] at hx
      cases hx
    · cases hb
    · rw [← hc, hnil, List.map_nil]

theorem PathSet.otherUp_exits (p : PathSet) (x : Nat) : (p.otherUp x).map (·.1) = (upExits p.members).filter (· != x) := by
  rw [← upExits_filter_ne, PathSet.otherUp, List.map_map]
  rfl

/-! ### The changes of one path set -/

@[simp] theorem PathSet.addMember_id (p : PathSet) (m : Member) : (p.addMember m).id = p.id := by
  unfold PathSet.addMember
  split <;> simp

@[simp] theorem PathSet.removeMember_id (p : PathSet) (m : Member) : (p.removeMember m).id = p.id := by
  unfold PathSet.removeMember
  split <;> rfl

@[simp] theorem PathSet.reweigh_id (p : PathSet) (x k : Nat) : (p.reweigh x k).id = p.id := by
  simp [PathSet.reweigh]

theorem PathSet.allEmpty_eq_false {p : PathSet} : p.allEmpty = false ↔ ∃ e, some e ∈ p.map := by
  simp only [PathSet.allEmpty, List.all_eq_false, Bool.not_eq_true, Option.isNone_eq_false_iff, Option.isSome_iff_exists]
  exact ⟨fun ⟨b, hb, e, he⟩ => ⟨e, he ▸ hb⟩, fun ⟨e, he⟩ => ⟨_, he, e, rfl⟩⟩

theorem PathSet.fill_lawful {p : PathSet} (h : p.lawful) : p.fill.lawful := by
  obtain ⟨hms, -⟩ := p.lawful_iff.mp h
  exact p.fill.lawful_iff.mpr ⟨hms, fillMap_lawful hms⟩

/-- A gain lays the map out afresh, or leaves a map that names somebody, and the members recorded UP before still are. -/
theorem PathSet.gain_lawful {p : PathSet} {ms : List Member} (h : p.lawful) (hms : membersLawful ms)
    (hup : upExits p.members ⊆ upExits ms) : ({ p with members := ms } : PathSet).gain.lawful := by
  obtain ⟨-, hmap⟩ := p.lawful_iff.mp h
  rw [PathSet.lawful_iff, PathSet.gain_members]
  refine ⟨hms, ?_⟩
  unfold PathSet.gain
  split
  case isTrue => exact fillMap_lawful hms
  case isFalse hg =>
    obtain ⟨hnamed, -⟩ := Bool.or_eq_false_iff.mp (Bool.not_eq_true _ ▸ hg)
    exact mapLawful_mono hmap hup (PathSet.allEmpty_eq_false.mp hnamed)

theorem PathSet.member?_some {p : PathSet} {x : Nat} {m : Member} (h : p.member? x = some m) :
    m ∈ p.members ∧ m.exit = x :=
  ⟨List.mem_of_find?_eq_some h, by simpa using List.find?_some h⟩

theorem PathSet.member?_eq_none {p : PathSet} {x : Nat} : p.member? x = none ↔ x ∉ p.members.map (·.exit) := by
  simp [PathSet.member?, List.find?_eq_none]

/-- A member update keeps the law, whatever state it derives (R53). -/
theorem PathSet.memberUpdate_lawful {p : PathSet} (h : p.lawful) (x : Nat) (up : Bool) : (p.memberUpdate x up).lawful := by
  obtain ⟨hms, hmap⟩ := p.lawful_iff.mp h
  rcases p.memberUpdate_cases x up with ⟨he, -⟩ | ⟨m, -, -, -, he⟩ | ⟨m, hm, hu, -, he⟩ <;> rw [he]
  case inl => exact h
  case inr.inl => exact PathSet.gain_lawful h (membersLawful_mark hms x true) (upExits_subset_markUp _ x)
  case inr.inr =>
    obtain ⟨hmem, hexit⟩ := PathSet.member?_some hm
    have hdown : upExits (p.updMember x fun m => { m with up := false }).members = (upExits p.members).filter (· != x) :=
      upExits_markDown p.members x
    refine (PathSet.lawful_iff _).mpr ⟨membersLawful_mark hms x false, ?_⟩
    rw [PathSet.lose_members, hdown]
    refine reassign_lawful hmap (mem_upExits.mpr ⟨m, hmem, hexit, hu⟩) ?_
    rw [PathSet.otherUp_exits, hdown, List.filter_filter]
    simp

/-- A member joins at the end: a gain when it is recorded UP, and no change of the UP exits when it is DOWN (R48). -/
theorem PathSet.addMember_lawful {p : PathSet} {m : Member} (h : p.lawful) (hl : p.members.length < Config.maxMembers)
    (hn : p.member? m.exit = none) (hw : 1 ≤ m.weight ∧ m.weight ≤ 15) : (p.addMember m).lawful := by
  obtain ⟨hms, hmap⟩ := p.lawful_iff.mp h
  have hms := membersLawful_concat hms hl (PathSet.member?_eq_none.mp hn) hw
  unfold PathSet.addMember
  cases hu : m.up with
  | true => exact PathSet.gain_lawful h hms (by simp)
  | false =>
    refine (PathSet.lawful_iff _).mpr ⟨hms, ?_⟩
    have hnone : upExits [m] = [] := upExits_eq_nil.mpr (by simpa using hu)
    simpa [hnone] using hmap

@[simp] theorem PathSet.removeMember_members (p : PathSet) (m : Member) :
    (p.removeMember m).members = p.members.filter (·.exit != m.exit) := by
  unfold PathSet.removeMember
  cases m.up <;> rfl

@[simp] theorem PathSet.removeMember_map (p : PathSet) (m : Member) :
    (p.removeMember m).map = if m.up then (p.lose m.exit).map else p.map := by
  unfold PathSet.removeMember
  cases m.up <;> rfl

/-- The exit of a member recorded DOWN is none of the UP exits, for no other member names it. -/
theorem upExits_filter_ne_of_down {ms : List Member} (hn : (ms.map (·.exit)).Nodup) {m : Member} (hm : m ∈ ms)
    (hu : m.up = false) : (upExits ms).filter (· != m.exit) = upExits ms := by
  refine List.filter_eq_self.mpr fun e he => bne_iff_ne.mpr ?_
  rintro rfl
  obtain ⟨k, hk, hexit, hku⟩ := mem_upExits.mp he
  rw [List.inj_on_of_nodup_map hn hk hm hexit, hu] at hku
  cases hku

/-- A member leaves: its buckets go to the others when it is recorded UP, and it has none when it is DOWN (R49). -/
theorem PathSet.removeMember_lawful {p : PathSet} {m : Member} (h : p.lawful) (hm : m ∈ p.members) :
    (p.removeMember m).lawful := by
  obtain ⟨hms, hmap⟩ := p.lawful_iff.mp h
  rw [PathSet.lawful_iff, PathSet.removeMember_members, PathSet.removeMember_map, upExits_leave]
  refine ⟨membersLawful_filter hms _, ?_⟩
  cases hu : m.up with
  | true => exact reassign_lawful hmap (mem_upExits.mpr ⟨m, hm, rfl, hu⟩) (p.otherUp_exits m.exit)
  | false =>
    obtain ⟨-, hnodup, -⟩ := hms
    rwa [upExits_filter_ne_of_down hnodup hm hu]

/-- A weight in range is written in place (R50). -/
theorem PathSet.reweigh_lawful {p : PathSet} {k : Nat} (h : p.lawful) (x : Nat) (hk : 1 ≤ k ∧ k ≤ 15) :
    (p.reweigh x k).lawful := by
  obtain ⟨hms, -⟩ := p.lawful_iff.mp h
  refine PathSet.gain_lawful h (membersLawful_map hms fun m hm => ?_)
    ((upExits_reweigh p.members x k).symm ▸ List.Subset.refl _)
  obtain ⟨-, -, hweight⟩ := hms
  split
  · exact ⟨rfl, hk⟩
  · exact ⟨rfl, hweight m hm⟩

end Sys2Proof.Machine
end

section
/-! PROOFS. The law of the Path Table under each change of its records, of the lines of claims and of the claim in
progress. -/

namespace Sys2Proof.Machine

/-! ### Claims have no part in the law -/

section
variable (pt : PathTable)

@[simp] theorem PathTable.lawful_withClaims (w : ClaimLine PtClaim) (t : Option PtTaken) :
    (⟨pt.exits, pt.sets, w, t⟩ : PathTable).lawful ↔ pt.lawful := Iff.rfl
@[simp] theorem PathTable.present_lawful (c : PtClaim) (together : Bool) :
    (pt.present c together).lawful ↔ pt.lawful := Iff.rfl
@[simp] theorem PathTable.offer_lawful (c : PtClaim) : (pt.offer c).lawful ↔ pt.lawful := Iff.rfl
@[simp] theorem PathTable.withdraw_lawful (c : PtClaim) : (pt.withdraw c).lawful ↔ pt.lawful := Iff.rfl

@[simp] theorem PathTable.finishCommand_lawful : pt.finishCommand.lawful ↔ pt.lawful := by
  rcases pt.finishCommand_cases with ⟨_, -, h⟩ | ⟨-, h⟩ <;> simp [h]

@[simp] theorem PathTable.restartPass_lawful (p : Fin 64) : (pt.restartPass p).lawful ↔ pt.lawful := by
  rcases pt.restartPass_cases p with ⟨_, -, -, h⟩ | ⟨-, h⟩ <;> simp [h]

end

theorem PathTable.reset_lawful : PathTable.reset.lawful := ⟨.nil, .nil, fun _ h => nomatch h⟩

/-! ### Records -/

/-- A change that keeps each record's ID keeps the order of the IDs. -/
theorem pairwise_map_ident {α : Type} {ident : α → Nat} {f : α → α} (hf : ∀ x, ident (f x) = ident x) {l : List α}
    (h : l.Pairwise fun a b => ident a < ident b) : (l.map f).Pairwise fun a b => ident a < ident b :=
  List.pairwise_map.mpr (h.imp fun hab => by rwa [hf, hf])

/-- No two records have one ID, so the lookup finds a record of the table under its ID. -/
theorem PathTable.set?_of_mem {pt : PathTable} (h : pt.lawful) {p : PathSet} (hp : p ∈ pt.sets) : pt.set? p.id = some p := by
  obtain ⟨-, hs, -⟩ := h
  obtain ⟨q, hq⟩ : ∃ q, pt.set? p.id = some q :=
    Option.isSome_iff_exists.mp (List.find?_isSome.mpr ⟨p, hp, beq_self_eq_true _⟩)
  obtain ⟨hmem, hid⟩ := PathTable.set?_some hq
  have hn : (pt.sets.map (·.id)).Nodup := List.pairwise_map.mpr (hs.imp Nat.ne_of_lt)
  rw [hq, List.inj_on_of_nodup_map hn hmem hp hid]

theorem PathTable.set?_lawful {pt : PathTable} (h : pt.lawful) {i : Nat} {p : PathSet} (hp : pt.set? i = some p) :
    p.lawful := by
  obtain ⟨-, -, hsets⟩ := h
  exact hsets p (PathTable.set?_some hp).1

theorem PathTable.set?_eq_none {pt : PathTable} {i : Nat} : pt.set? i = none ↔ ∀ p ∈ pt.sets, p.id ≠ i := by
  simp [PathTable.set?, List.find?_eq_none]

theorem PathTable.exit?_eq_none {pt : PathTable} {i : Nat} : pt.exit? i = none ↔ ∀ e ∈ pt.exits, e.id ≠ i := by
  simp [PathTable.exit?, List.find?_eq_none]

section
variable {pt : PathTable} (h : pt.lawful)
include h

/-- A change of one path set keeps the law when it keeps the set's ID and the set found under the ID lawful. -/
theorem PathTable.updSet_lawful {i : Nat} {f : PathSet → PathSet} (hid : ∀ p, (f p).id = p.id)
    (hf : ∀ p, pt.set? i = some p → (f p).lawful) : (pt.updSet i f).lawful := by
  obtain ⟨he, hs, hp⟩ := h
  refine ⟨he, pairwise_map_ident (fun p => by split <;> simp [hid]) hs, fun q hq => ?_⟩
  obtain ⟨p, hmem, rfl⟩ := List.mem_map.mp hq
  split
  case isTrue hi =>
    have hpi : p.id = i := beq_iff_eq.mp hi
    exact hf p (hpi ▸ PathTable.set?_of_mem ⟨he, hs, hp⟩ hmem)
  case isFalse => exact hp p hmem

/-- A change of a set's policies, backup or references has no part in the law. -/
theorem PathTable.updSet_lawful_of_fields (i : Nat) {f : PathSet → PathSet} (hid : ∀ p, (f p).id = p.id)
    (hms : ∀ p, (f p).members = p.members) (hmap : ∀ p, (f p).map = p.map) : (pt.updSet i f).lawful :=
  PathTable.updSet_lawful h hid fun p hp => by
    rw [PathSet.lawful_iff, hms, hmap, ← PathSet.lawful_iff]
    exact PathTable.set?_lawful h hp

theorem PathTable.updExit_lawful (i : Nat) {f : Exit → Exit} (hid : ∀ e, (f e).id = e.id) : (pt.updExit i f).lawful := by
  obtain ⟨he, hs, hp⟩ := h
  exact ⟨pairwise_map_ident (fun e => by split <;> simp [hid]) he, hs, hp⟩

theorem PathTable.insertExit_lawful {e : Exit} (hf : pt.exit? e.id = none) :
    ({ pt with exits := insertBy Exit.id e pt.exits } : PathTable).lawful := by
  obtain ⟨he, hs, hp⟩ := h
  exact ⟨insertBy_sorted he (PathTable.exit?_eq_none.mp hf), hs, hp⟩

theorem PathTable.insertSet_lawful {p : PathSet} (hf : pt.set? p.id = none) (hl : p.lawful) :
    ({ pt with sets := insertBy PathSet.id p pt.sets } : PathTable).lawful := by
  obtain ⟨he, hs, hp⟩ := h
  refine ⟨he, insertBy_sorted hs (PathTable.set?_eq_none.mp hf), fun q hq => ?_⟩
  rcases mem_insertBy.mp hq with rfl | hq
  · exact hl
  · exact hp q hq

theorem PathTable.filterExits_lawful (stay : Exit → Bool) :
    ({ pt with exits := pt.exits.filter stay } : PathTable).lawful := by
  obtain ⟨he, hs, hp⟩ := h
  exact ⟨he.filter stay, hs, hp⟩

theorem PathTable.filterSets_lawful (stay : PathSet → Bool) :
    ({ pt with sets := pt.sets.filter stay } : PathTable).lawful := by
  obtain ⟨he, hs, hp⟩ := h
  exact ⟨he, hs.filter stay, fun p hm => hp p (List.mem_of_mem_filter hm)⟩

/-! ### References: the counts have no part in the law -/

theorem PathTable.countRoute_lawful (f : Nat → Nat) (t : Target) : (pt.countRoute f t).lawful := by
  cases t with
  | pathSet i => exact PathTable.updSet_lawful_of_fields h i (fun _ => rfl) (fun _ => rfl) fun _ => rfl
  | exit i => exact PathTable.updExit_lawful h i fun _ => rfl
  | discard => exact h
  | control => exact h

theorem PathTable.countPin_lawful (f : Nat → Nat) (t : Target) : (pt.countPin f t).lawful := by
  cases t with
  | pathSet i => exact PathTable.updSet_lawful_of_fields h i (fun _ => rfl) (fun _ => rfl) fun _ => rfl
  | exit i => exact PathTable.updExit_lawful h i fun _ => rfl
  | discard => exact h
  | control => exact h

theorem PathTable.releaseRoute_lawful (t : Target) : (pt.releaseRoute t).lawful := PathTable.countRoute_lawful h _ t

theorem PathTable.releasePin_lawful (t : Target) : (pt.releasePin t).lawful := PathTable.countPin_lawful h _ t

theorem PathTable.takeRoute_lawful {t : Target} {pt' : PathTable} (ht : pt.takeRoute t = some pt') : pt'.lawful := by
  rcases pt.takeRoute_cases t with ⟨-, he⟩ | ⟨-, he⟩ <;> rw [he] at ht <;> cases ht
  exact PathTable.countRoute_lawful h _ t

theorem PathTable.takePin_lawful {t : Target} {pt' : PathTable} (ht : pt.takePin t = some pt') : pt'.lawful := by
  rcases pt.takePin_cases t with ⟨-, he⟩ | ⟨-, he⟩ <;> rw [he] at ht <;> cases ht
  exact PathTable.countPin_lawful h _ t

theorem PathTable.takeBackup_lawful (i : Nat) : (pt.takeBackup i).lawful :=
  PathTable.updSet_lawful_of_fields h i (fun _ => rfl) (fun _ => rfl) fun _ => rfl

theorem PathTable.releaseBackup_lawful (b : Option Nat) : (pt.releaseBackup b).lawful := by
  cases b with
  | none => exact h
  | some i => exact PathTable.updSet_lawful_of_fields h i (fun _ => rfl) (fun _ => rfl) fun _ => rfl

theorem PathTable.join_lawful (set exit : Nat) : (pt.join set exit).lawful := PathTable.updExit_lawful h exit fun _ => rfl

theorem PathTable.leave_lawful (set exit : Nat) : (pt.leave set exit).lawful := PathTable.updExit_lawful h exit fun _ => rfl

/-! ### Member updates and the fill rule on the table -/

theorem PathTable.memberUpdate_lawful (i x : Nat) (up : Bool) : (pt.updSet i (·.memberUpdate x up)).lawful :=
  PathTable.updSet_lawful h (fun p => p.memberUpdate_id x up) fun _ hp =>
    PathSet.memberUpdate_lawful (PathTable.set?_lawful h hp) x up

theorem PathTable.fill_lawful (i : Nat) : (pt.updSet i (·.fill)).lawful :=
  PathTable.updSet_lawful h (fun _ => rfl) fun _ hp => PathSet.fill_lawful (PathTable.set?_lawful h hp)

theorem PathTable.visit_lawful (live : Bool) (place : Nat × Nat) : (pt.visit live place).lawful := by
  unfold PathTable.visit
  split
  · exact h
  · exact PathTable.memberUpdate_lawful h _ _ _

theorem PathTable.refill_lawful (j : Job) (first last : Nat) : (pt.refill j first last).1.lawful := by
  unfold PathTable.refill
  dsimp only
  split
  · exact h
  · exact PathTable.fill_lawful h _

end

/-- A change that keeps the law, made one time after another, keeps it. -/
theorem PathTable.foldl_lawful {α : Type} {f : PathTable → α → PathTable} (hf : ∀ pt x, pt.lawful → (f pt x).lawful)
    (l : List α) {pt : PathTable} (h : pt.lawful) : (l.foldl f pt).lawful := by
  induction l generalizing pt with
  | nil => exact h
  | cons x xs ih => exact ih (hf pt x h)

theorem PathTable.visitUsers_lawful {pt : PathTable} (h : pt.lawful) (reads : List Bool) (x : Nat) :
    (pt.visitUsers reads x).lawful := by
  unfold PathTable.visitUsers
  split
  · exact h
  · exact PathTable.foldl_lawful (fun _ _ ht => PathTable.memberUpdate_lawful ht _ _ _) _ h

theorem PathTable.deleteSet_lawful {pt : PathTable} (h : pt.lawful) (p : PathSet) : (pt.deleteSet p).lawful :=
  PathTable.filterSets_lawful
    (PathTable.foldl_lawful (fun _ _ ht => PathTable.leave_lawful ht _ _) _ (PathTable.releaseBackup_lawful h _)) _

/-! ### SET CREATE and SET CHANGE (R44, R45) -/

theorem nodup_of_distinctExits {l : List (Nat × Nat)} (h : distinctExits l = true) : (l.map (·.1)).Nodup := by
  induction l with
  | nil => exact .nil
  | cons x xs ih =>
    simp only [distinctExits, Bool.and_eq_true, List.all_eq_true, bne_iff_ne] at h
    obtain ⟨hx, hxs⟩ := h
    refine List.nodup_cons.mpr ⟨fun hmem => ?_, ih hxs⟩
    obtain ⟨y, hy, he⟩ := List.mem_map.mp hmem
    exact hx y hy he

/-- What SET CREATE's checks leave of its arguments: few enough entries, no exit twice, and an ID that is FREE. -/
theorem SetCreate.refusal_eq_none {c : SetCreate} {pt : PathTable} (h : c.refusal pt = none) :
    c.entries.length ≤ Config.maxMembers ∧ (c.entries.map (·.1)).Nodup ∧ pt.set? c.id = none := by
  unfold SetCreate.refusal at h
  split at h
  · cases h
  rename_i hl
  split at h
  · cases h
  rename_i hd
  split at h
  · cases h
  split at h
  · cases h
  rename_i hs
  exact ⟨Nat.le_of_not_lt hl, nodup_of_distinctExits (by simpa using hd), by simpa using hs⟩

@[simp] theorem PathTable.newMember_exit (pt : PathTable) (x : Nat × Nat) (live : Bool) : (pt.newMember x live).exit = x.1 := rfl
@[simp] theorem PathTable.newMember_weight (pt : PathTable) (x : Nat × Nat) (live : Bool) :
    (pt.newMember x live).weight = x.2 := rfl

/-- Each entry makes at most one member, of its exit and its weight. -/
theorem SetCreate.members_lawful {c : SetCreate} {pt : PathTable} (reads : List Bool) (h : c.refusal pt = none)
    (hw : ∀ x ∈ c.entries, 1 ≤ x.2 ∧ x.2 ≤ 15) : membersLawful (c.members pt reads) := by
  obtain ⟨hl, hn, -⟩ := SetCreate.refusal_eq_none h
  refine ⟨?_, ?_, fun m hm => ?_⟩
  · rw [SetCreate.members, List.length_map, List.length_zip]
    exact (Nat.min_le_left _ _).trans hl
  · have hexits : (c.members pt reads).map (·.exit) = ((c.entries.zip reads).map Prod.fst).map (·.1) := by
      simp [SetCreate.members]
    rw [hexits]
    rw [List.zip_eq_zip_take_min, List.map_fst_zip (by simp)]
    exact hn.sublist ((List.take_sublist _ _).map _)
  · obtain ⟨⟨x, live⟩, hx, rfl⟩ := List.mem_map.mp hm
    exact hw x (List.of_mem_zip hx).1

/-- Members that join a set change nothing but exits. -/
theorem PathTable.foldl_join_sets (set : Nat) (entries : List (Nat × Nat)) (pt : PathTable) :
    (entries.foldl (fun t x => t.join set x.1) pt).sets = pt.sets := by
  induction entries generalizing pt with
  | nil => rfl
  | cons x xs ih => exact ih (pt.join set x.1)

/-- The takes of SET CREATE on the exits of its entries, and its record put into the table. -/
theorem PathTable.joinAndInsert_lawful {pt : PathTable} (h : pt.lawful) {p : PathSet} (hfree : pt.set? p.id = none)
    (hl : p.lawful) (entries : List (Nat × Nat)) :
    let joined := entries.foldl (fun t x => t.join p.id x.1) pt
    ({ joined with sets := insertBy PathSet.id p joined.sets } : PathTable).lawful := by
  refine PathTable.insertSet_lawful (PathTable.foldl_lawful (fun _ _ ht => PathTable.join_lawful ht _ _) _ h) ?_ hl
  rwa [PathTable.set?, PathTable.foldl_join_sets]

theorem PathTable.takeBackup_set?_eq_none {pt : PathTable} {i : Nat} (h : pt.set? i = none) (b : Nat) :
    (pt.takeBackup b).set? i = none := by
  rw [PathTable.takeBackup, PathTable.updSet_set?, h, Option.map_none]
  exact fun _ => rfl

/-- The table that SET CREATE leaves, when its checks pass and its weights are in range (R44). -/
theorem SetCreate.apply_lawful {c : SetCreate} {pt : PathTable} (h : pt.lawful) (reads : List Bool)
    (hr : c.refusal pt = none) (hw : ∀ x ∈ c.entries, 1 ≤ x.2 ∧ x.2 ≤ 15) : (c.apply pt reads).lawful := by
  obtain ⟨-, -, hfree⟩ := SetCreate.refusal_eq_none hr
  have hms := SetCreate.members_lawful reads hr hw
  have hrecord : (c.record pt reads).lawful := (PathSet.lawful_iff _).mpr ⟨hms, fillMap_lawful hms⟩
  unfold SetCreate.apply
  cases c.backup with
  | none => exact PathTable.joinAndInsert_lawful h hfree hrecord c.entries
  | some b =>
    exact PathTable.joinAndInsert_lawful (PathTable.takeBackup_lawful h b) (PathTable.takeBackup_set?_eq_none hfree b)
      hrecord c.entries

/-- SET CHANGE writes no member and no map. -/
theorem PathTable.setChange_lawful {pt : PathTable} (h : pt.lawful) (c : SetChange) (i : Nat) :
    (pt.updSet i c.apply).lawful :=
  PathTable.updSet_lawful_of_fields h i (fun _ => rfl) (fun _ => rfl) fun _ => rfl

theorem SetChange.references_lawful {pt : PathTable} (h : pt.lawful) (c : SetChange) (old : Option Nat) :
    (c.references old pt).lawful := by
  unfold SetChange.references
  split
  · exact h
  · exact PathTable.releaseBackup_lawful h _
  · exact PathTable.releaseBackup_lawful (PathTable.takeBackup_lawful h _) _

end Sys2Proof.Machine
end

section
/-! PROOFS. The law of the Path Table under the blocks' shared operations on the state, and under the work of each host
command. -/

namespace Sys2Proof.Machine

/-! ### Operations that change no record of the Path Table -/

section
variable (s : State)

@[simp] theorem State.portClaim_lawful (p : Fin 64) (f : Port → Port) : (s.portClaim p f).pt.lawful ↔ s.pt.lawful := by
  unfold State.portClaim
  dsimp only
  split <;> simp

@[simp] theorem State.resolution_lawful (c : Source) (k : Ask) (len : Nat) (t : Target) (g : BitVec 16) (d : DropVerdict) :
    (s.resolution c k len t g d).pt.lawful ↔ s.pt.lawful := by
  rcases s.resolution_cases c k len t g d with ⟨-, h⟩ | ⟨-, h⟩ <;> simp [h, State.finishResolution]

@[simp] theorem State.presentStep_lawful (together : Bool) : (s.presentStep together).pt.lawful ↔ s.pt.lawful := by
  rcases s.presentStep_cases together with h | ⟨n, j, -, -, -, -, -, ⟨f, a, -, h⟩ | ⟨x, y, -, h⟩⟩ <;> simp [h]

@[simp] theorem State.beginEnding_lawful (n : Fin 4) : (s.beginEnding n).pt.lawful ↔ s.pt.lawful := by
  rcases s.beginEnding_cases n with ⟨j, o, t, -, -, -, -, h⟩ | ⟨j, o, -, -, -, -, h⟩ | h <;> simp [h]

@[simp] theorem State.finishStep_lawful (n : Fin 4) (j : Job) : (s.finishStep n j).pt.lawful ↔ s.pt.lawful := by
  simp [State.finishStep]

@[simp] theorem State.stepMade_lawful (n : Fin 4) (j : Job) (k : Option Job) :
    (s.stepMade n j k).pt.lawful ↔ s.pt.lawful := by
  cases k <;> simp [State.stepMade]

@[simp] theorem State.withdrawStep_lawful (n : Fin 4) : (s.withdrawStep n).pt.lawful ↔ s.pt.lawful := by
  unfold State.withdrawStep
  (repeat' split) <;> simp

@[simp] theorem State.dropClaims_lawful : s.dropClaims.pt.lawful ↔ s.pt.lawful := by
  simp [State.dropClaims]

@[simp] theorem State.progressTo_lawful (ws : List Word) (p : Progress) :
    (s.progressTo ws p).pt.lawful ↔ s.pt.lawful := by
  unfold State.progressTo
  split <;> simp

@[simp] theorem State.await_lawful (w : Word) (ps : List Word) : (s.await w ps).pt.lawful ↔ s.pt.lawful := by
  simp only [State.await, State.setPmon_pt, State.setPt_pt]
  split <;> simp

@[simp] theorem State.lastClaim_lawful : s.lastClaim.pt.lawful ↔ s.pt.lawful := by
  unfold State.lastClaim
  (repeat' split) <;> simp

@[simp] theorem State.takeStep_lawful : s.takeStep.pt.lawful ↔ s.pt.lawful := by
  unfold State.takeStep
  dsimp only
  (repeat' split) <;> simp

@[simp] theorem State.takeVisit_lawful : s.takeVisit.pt.lawful ↔ s.pt.lawful := by
  rcases s.takeVisit_cases with h | ⟨p, cursor, -, -, -, -, h⟩ <;> simp [h]

@[simp] theorem State.takeRead_lawful : s.takeRead.pt.lawful ↔ s.pt.lawful := by
  rcases s.takeRead_cases with h | ⟨w, ps, p, q, rest, -, -, -, -, -, -, h⟩ <;> simp [h]

@[simp] theorem State.tick_lawful : s.tick.pt.lawful ↔ s.pt.lawful := by
  simp [State.tick]

@[simp] theorem State.restartUnits_lawful : s.restartUnits.pt.lawful ↔ s.pt.lawful := Iff.rfl

@[simp] theorem State.abandonWork_lawful : s.abandonWork.pt.lawful ↔ s.pt.lawful := Iff.rfl

end

/-! ### What the checks of the operands leave (R38, R48) -/

theorem weight_of_memberEntryOf {w : Word} {x : Nat × Nat} (hx : memberEntryOf w = some x) : 1 ≤ x.2 ∧ x.2 ≤ 15 := by
  simp only [memberEntryOf, Option.bind_eq_bind, Option.bind_eq_some_iff, weightOf] at hx
  obtain ⟨e, -, k, hk, hx⟩ := hx
  cases hx
  split at hk
  · cases hk
    assumption
  · cases hk

/-- What is read of a list is read of its entries. -/
theorem mem_readAll {α β : Type} {f : α → Option β} {l : List α} {ys : List β} (hr : readAll f l = some ys) {y : β}
    (hy : y ∈ ys) : ∃ x ∈ l, f x = some y := by
  induction l generalizing ys with
  | nil =>
    cases hr
    cases hy
  | cons x xs ih =>
    simp only [readAll, Option.bind_eq_some_iff, Option.map_eq_some_iff] at hr
    obtain ⟨z, hz, zs, hzs, rfl⟩ := hr
    rcases List.mem_cons.mp hy with rfl | hy
    · exact ⟨x, List.mem_cons_self, hz⟩
    · obtain ⟨w, hw, he⟩ := ih hzs hy
      exact ⟨w, List.mem_cons_of_mem _ hw, he⟩

theorem setCreateFields_weights {ps : List Word} {c : SetCreate} (hc : setCreateFields ps = some c) :
    ∀ x ∈ c.entries, 1 ≤ x.2 ∧ x.2 ≤ 15 := by
  simp only [setCreateFields, Option.bind_eq_bind, Option.bind_eq_some_iff] at hc
  obtain ⟨_, -, _, -, _, -, _, -, _, -, entries, he, hc⟩ := hc
  cases hc
  intro x hx
  obtain ⟨w, -, hw⟩ := mem_readAll he hx
  exact weight_of_memberEntryOf hw

theorem memberAddFields_weight {ps : List Word} {id : Nat} {x : Nat × Nat} (hf : memberAddFields ps = some (id, x)) :
    1 ≤ x.2 ∧ x.2 ≤ 15 := by
  simp only [memberAddFields, Option.bind_eq_bind, Option.bind_eq_some_iff] at hf
  obtain ⟨_, -, y, hy, hf⟩ := hf
  cases hf
  exact weight_of_memberEntryOf hy

/-- What MEMBER ADD's checks leave of the set: one that the exit is no member of, with room for it. -/
theorem memberAddRefusal_eq_none {pt : PathTable} {id x : Nat} (hr : memberAddRefusal pt id x = none) :
    ∀ p, pt.set? id = some p → p.member? x = none ∧ p.members.length < Config.maxMembers := by
  intro p hp
  simp only [memberAddRefusal, hp] at hr
  split at hr
  · cases hr
  split at hr
  · cases hr
  rename_i hm
  split at hr
  · cases hr
  exact ⟨by simpa using hm, Nat.lt_of_not_le ‹_›⟩

/-! ### Operations that change records -/

section
variable {s : State} (h : s.pt.lawful)
include h

theorem State.visitPass_lawful (v : Visit) : (s.visitPass v).pt.lawful := by
  rcases s.visitPass_cases v with ⟨-, he⟩ | ⟨place, -, ⟨-, he⟩ | ⟨-, he⟩⟩
  · rw [he, State.passTo_pt, State.setPt_pt]
    split <;> simpa using h
  · rw [he, State.passTo_pt, State.setPt_pt, PathTable.present_lawful]
    exact PathTable.visit_lawful (by simpa using h) _ _
  · simpa [he] using h

theorem State.withdrawRoute_lawful (r : Route) : (s.withdrawRoute r).pt.lawful := by
  simpa [State.withdrawRoute] using PathTable.releaseRoute_lawful h r.target

theorem State.applyAction_lawful (a : Action) (r : Route) : (s.applyAction a r).pt.lawful := by
  cases a with
  | count => exact h
  | retire => exact State.withdrawRoute_lawful h r
  | repoint t => exact PathTable.releaseRoute_lawful (PathTable.countRoute_lawful h _ t) _
  | sweep =>
    simp only [State.applyAction]
    split
    · exact h
    · exact State.withdrawRoute_lawful h r
  | clearMarks => exact h

theorem State.survey_lawful (j : Job) (f : Filter) (a : Action) : (s.survey j f a).1.pt.lawful := by
  unfold State.survey
  split
  · exact h
  · dsimp only
    split
    · exact State.applyAction_lawful h a _
    · exact h

theorem State.makeStep_lawful (j : Job) (f : Filter) (a : Action) : (s.makeStep j f a).1.pt.lawful := by
  rcases s.makeStep_cases j f a with ⟨-, he⟩ | ⟨-, -, he⟩ | ⟨-, -, he⟩ <;> rw [he]
  · exact State.survey_lawful (by simpa using h) j f a
  · exact State.survey_lawful (by simpa using h) j f a
  · simpa using h

/-! ### What every host command's row keeps -/

/-- The work with its reference claim keeps the law when the work does. -/
theorem State.withReference_lawful (refers : Bool) {work : State → Reply}
    (hw : ∀ t : State, t.pt.lawful → (work t).1.pt.lawful) : (s.withReference refers work).1.pt.lawful := by
  rcases s.withReference_cases refers work with ⟨-, he⟩ | ⟨-, -, he⟩ | ⟨-, -, he⟩ <;> rw [he]
  · exact hw s h
  · exact hw _ (by simpa using h)
  · simpa using h

/-- The work with its reads keeps the law when the work does, made on the Path Table as it stands. -/
theorem State.withReads_lawful (ports : List (Fin 64)) {work : List Bool → State → Reply}
    (hw : ∀ reads (t : State), t.pt = s.pt → (work reads t).1.pt.lawful) : (s.withReads ports work).1.pt.lawful := by
  rcases s.withReads_cases ports work with ⟨-, he⟩ | ⟨-, he⟩ <;> rw [he]
  · exact hw _ _ rfl
  · simpa using h

theorem withIdentity_lawful {α : Type} (ps : List Word) (others : Nat) (more : Identity → Option α)
    {work : Identity → α → Reply} (hw : ∀ i a, (work i a).1.pt.lawful) :
    (withIdentity ps others more s work).1.pt.lawful := by
  rcases withIdentity_cases ps others more s work with he | ⟨i, a, -, -, -, he⟩ <;> rw [he]
  · exact h
  · exact hw i a

theorem runCommand_lawful (code : Nat) {body : List Word → State → Reply} (hb : ∀ ps, (body ps s).1.pt.lawful) :
    (runCommand code body s).pt.lawful :=
  runCommand_keeps (P := fun t => t.pt.lawful) h (fun t ws x => (t.progressTo_lawful ws x).mpr)
    (fun w ps => (s.await_lawful w ps).mpr h) hb

/-! ### Route commands (R21 to R23) -/

theorem addRoute_lawful (i : Identity) (a : Target × RouteClass × BitVec 16) : (addRoute i a s).1.pt.lawful := by
  unfold addRoute
  split
  · exact h
  · rename_i pt ht
    have hpt := PathTable.takeRoute_lawful h ht
    split
    · exact h
    · split
      · exact h
      · simpa using hpt

theorem changeRoute_lawful (i : Identity) (c : RouteChange) (r : Route) : (changeRoute i c r s).1.pt.lawful := by
  unfold changeRoute
  split
  · exact h
  · rename_i pt hr
    show pt.lawful
    unfold RouteChange.references at hr
    split at hr
    · cases hr
      exact h
    · obtain ⟨pt', ht, rfl⟩ := Option.map_eq_some_iff.mp hr
      exact PathTable.releaseRoute_lawful (PathTable.takeRoute_lawful h ht) _

theorem routeAddWork_lawful (ps : List Word) : (routeAddWork ps s).1.pt.lawful :=
  withIdentity_lawful h ps _ _ fun i a => State.withReference_lawful h _ fun _ ht => addRoute_lawful ht i a

theorem routeChangeWork_lawful (ps : List Word) : (routeChangeWork ps s).1.pt.lawful := by
  refine withIdentity_lawful h ps _ _ fun i c => ?_
  split
  · exact h
  · exact State.withReference_lawful h _ fun _ ht => changeRoute_lawful ht i c _

theorem routeDropWork_lawful (ps : List Word) : (routeDropWork ps s).1.pt.lawful := by
  refine withIdentity_lawful h ps _ _ fun i _ => ?_
  split
  · exact h
  · exact State.withReference_lawful h _ fun _ ht => State.withdrawRoute_lawful ht _

theorem routeReadWork_lawful (ps : List Word) : (routeReadWork ps s).1.pt.lawful := by
  unfold routeReadWork
  split
  · exact h
  · simpa using h
  · exact withIdentity_lawful h ps _ _ fun i _ => by simpa using h
  · exact withIdentity_lawful h ps _ _ fun i _ => by simpa using h

/-! ### Exit commands (R39 to R43) -/

theorem exitCreateWork_lawful (ps : List Word) : (exitCreateWork ps s).1.pt.lawful := by
  unfold exitCreateWork
  split
  · exact h
  · rename_i e he
    split
    · exact h
    · exact PathTable.insertExit_lawful h (by simpa using ‹¬(s.pt.exit? e.id).isSome = true›)

/-- A write that keeps the exit's ID, with the member updates that follow it. -/
theorem changeExit_lawful {c : Option ExitWrite} (hc : ∀ w ∈ c, ∀ e, (w.write e).id = e.id) :
    (changeExit c s).1.pt.lawful := by
  unfold changeExit
  split
  · exact h
  · rename_i w
    split
    · exact h
    · refine State.withReads_lawful h _ fun reads t ht => ?_
      exact PathTable.visitUsers_lawful (PathTable.updExit_lawful (ht ▸ h) w.id (hc w rfl)) reads w.id

theorem exitChangeWork_lawful (ps : List Word) : (exitChangeWork ps s).1.pt.lawful :=
  changeExit_lawful h fun w hw e => by
    obtain ⟨x, -, rfl⟩ := Option.map_eq_some_iff.mp hw
    rfl

theorem exitAdminWork_lawful (enabled : Bool) (ps : List Word) :
    (changeExit (exitAdminWrite enabled ps) s).1.pt.lawful :=
  changeExit_lawful h fun w hw e => by
    obtain ⟨x, -, rfl⟩ := Option.map_eq_some_iff.mp hw
    rfl

theorem exitDeleteWork_lawful (ps : List Word) : (exitDeleteWork ps s).1.pt.lawful := by
  unfold exitDeleteWork
  split
  · exact h
  · split
    · exact h
    · split
      · exact h
      · exact PathTable.filterExits_lawful h _

theorem exitReadWork_lawful (ps : List Word) : (exitReadWork ps s).1.pt.lawful := by
  unfold exitReadWork
  split
  · exact h
  · split
    · exact h
    · exact State.withReads_lawful h _ fun _ _ ht => ht ▸ h

/-! ### Path set and member commands (R44 to R50, R67) -/

theorem setCreateWork_lawful (ps : List Word) : (setCreateWork ps s).1.pt.lawful := by
  unfold setCreateWork
  split
  · exact h
  · rename_i c hc
    split
    · exact h
    · rename_i hr
      refine State.withReads_lawful h _ fun reads t ht => ?_
      exact ht ▸ SetCreate.apply_lawful h reads hr (setCreateFields_weights hc)

theorem setChangeWork_lawful (ps : List Word) : (setChangeWork ps s).1.pt.lawful := by
  unfold setChangeWork
  split
  · exact h
  · split
    · exact h
    · split
      · exact h
      · split
        · exact h
        · exact PathTable.setChange_lawful (SetChange.references_lawful h _ _) _ _

theorem setDeleteWork_lawful (ps : List Word) : (setDeleteWork ps s).1.pt.lawful := by
  unfold setDeleteWork
  split
  · exact h
  · split
    · exact h
    · split
      · exact h
      · exact PathTable.deleteSet_lawful h _

theorem memberAddWork_lawful (ps : List Word) : (memberAddWork ps s).1.pt.lawful := by
  unfold memberAddWork
  split
  · exact h
  · rename_i id x hx
    split
    · exact h
    · rename_i hr
      refine State.withReads_lawful h _ fun reads t ht => ?_
      have hj : (t.pt.join id x.1).lawful := PathTable.join_lawful (ht ▸ h) id x.1
      refine PathTable.updSet_lawful hj (fun p => p.addMember_id _) fun p hp => ?_
      obtain ⟨hnew, hroom⟩ := memberAddRefusal_eq_none hr p (ht ▸ hp)
      exact PathSet.addMember_lawful (PathTable.set?_lawful hj hp) hroom hnew (memberAddFields_weight hx)

theorem memberRemoveWork_lawful (ps : List Word) : (memberRemoveWork ps s).1.pt.lawful := by
  unfold memberRemoveWork
  split
  · rename_i id e _ _
    split
    · exact h
    · rename_i m hm
      obtain ⟨p, hp, hm⟩ := Option.bind_eq_some_iff.mp hm
      have hleft : (s.pt.leave id e).lawful := PathTable.leave_lawful h id e
      refine PathTable.updSet_lawful hleft (fun q => q.removeMember_id m) fun q hq => ?_
      have hqp : q = p := Option.some.inj (hq.symm.trans hp)
      exact hqp ▸ PathSet.removeMember_lawful (PathTable.set?_lawful h hp) (PathSet.member?_some hm).1
  · exact h

theorem memberWeightWork_lawful (ps : List Word) : (memberWeightWork ps s).1.pt.lawful := by
  unfold memberWeightWork
  split
  · rename_i id x _ hx
    split
    · exact h
    · split
      · exact h
      · exact PathTable.updSet_lawful h (fun p => p.reweigh_id x.1 x.2) fun p hp =>
          PathSet.reweigh_lawful (PathTable.set?_lawful h hp) x.1 (weight_of_memberEntryOf hx)
  · exact h

theorem setRefillWork_lawful (ps : List Word) : (setRefillWork ps s).1.pt.lawful := by
  unfold setRefillWork
  split
  · exact h
  · split
    · exact h
    · exact PathTable.fill_lawful h _

/-! ### Commands of the other chapters that meet the Path Table -/

theorem portForceWork_lawful (ps : List Word) : (portForceWork ps s).1.pt.lawful := by
  unfold portForceWork
  split
  · simpa using h
  · exact h

theorem jobStartWork_lawful (ps : List Word) : (jobStartWork ps s).1.pt.lawful := by
  unfold jobStartWork
  split
  · exact h
  · rename_i spec _
    split
    · exact h
    · split
      · exact h
      · split
        · exact h
        · rename_i pt hpin
          have hpt : pt.lawful := by
            unfold JobSpec.takePin at hpin
            split at hpin
            · cases hpin
              exact h
            · exact PathTable.takePin_lawful h hpin
          simpa using hpt

theorem jobCancelWork_lawful (ps : List Word) : (jobCancelWork ps s).1.pt.lawful := by
  unfold jobCancelWork
  split
  · exact h
  · split
    · split
      · exact h
      · simpa using h
    · exact h

theorem restartWork_lawful (ps : List Word) : (restartWork ps s).1.pt.lawful := by
  rcases restartWork_cases ps s with ⟨-, he⟩ | ⟨-, -, he⟩ | ⟨-, -, he⟩ <;> rw [he]
  · exact h
  · exact PathTable.reset_lawful
  · exact PathTable.reset_lawful

end

end Sys2Proof.Machine
end

section
/-! PROOFS. The law of the Path Table under every row and under the step (R30, R55). -/

namespace Sys2Proof.Machine

/-! ### Commands that do not meet the Path Table -/

section
variable (ps : List Word) (s : State)

@[simp] theorem domainSetWork_pt : (domainSetWork ps s).1.pt = s.pt := by
  unfold domainSetWork; dsimp only; split <;> simp
@[simp] theorem domainReadWork_pt : (domainReadWork ps s).1.pt = s.pt := by
  unfold domainReadWork; split <;> simp
@[simp] theorem routeFindWork_pt : (routeFindWork ps s).1.pt = s.pt := by
  unfold routeFindWork; split <;> simp
@[simp] theorem setReadWork_pt : (setReadWork ps s).1.pt = s.pt := by
  unfold setReadWork; (repeat' split) <;> simp
@[simp] theorem mapReadWork_pt : (mapReadWork ps s).1.pt = s.pt := by
  unfold mapReadWork; (repeat' split) <;> simp
@[simp] theorem portReadWork_pt : (portReadWork ps s).1.pt = s.pt := by
  unfold portReadWork; split <;> simp
@[simp] theorem laneEnableWork_pt : (laneEnableWork ps s).1.pt = s.pt := by
  unfold laneEnableWork; (repeat' split) <;> simp
@[simp] theorem laneDisableWork_pt : (laneDisableWork ps s).1.pt = s.pt := by
  unfold laneDisableWork; (repeat' split) <;> simp
@[simp] theorem laneReadWork_pt : (laneReadWork ps s).1.pt = s.pt := by
  unfold laneReadWork; (repeat' split) <;> simp
@[simp] theorem laneWeightWork_pt : (laneWeightWork ps s).1.pt = s.pt := by
  unfold laneWeightWork; dsimp only; (repeat' split) <;> simp
@[simp] theorem probeWork_pt : (probeWork ps s).1.pt = s.pt := by
  unfold probeWork; split <;> simp
@[simp] theorem jobReadWork_pt : (jobReadWork ps s).1.pt = s.pt := by
  unfold jobReadWork; (repeat' split) <;> simp
@[simp] theorem collectWork_pt : (collectWork ps s).1.pt = s.pt := by
  unfold collectWork; split <;> simp
@[simp] theorem attentionMaskWork_pt : (attentionMaskWork ps s).1.pt = s.pt := by
  unfold attentionMaskWork; dsimp only; split <;> simp
@[simp] theorem identifyWork_pt : (identifyWork ps s).1.pt = s.pt := rfl
@[simp] theorem setParametersWork_pt : (setParametersWork ps s).1.pt = s.pt := by
  unfold setParametersWork; (repeat' split) <;> simp
@[simp] theorem readParametersWork_pt : (readParametersWork ps s).1.pt = s.pt := rfl
@[simp] theorem readSpaceWork_pt : (readSpaceWork ps s).1.pt = s.pt := rfl

end

/-! ### The rows -/

/-- The state that a row leads to has a lawful Path Table. -/
def pathsLawful (o : Out) : Prop := ∀ t, o = .next t → t.pt.lawful

@[simp] theorem pathsLawful_next {t : State} : pathsLawful (.next t) ↔ t.pt.lawful :=
  ⟨fun h => h t rfl, fun h _ ht => Host.Outcome.next.inj ht ▸ h⟩

section
variable {s : State} (h : s.pt.lawful)
include h

theorem pathsLawful_runCommand (code : Nat) {body : List Word → State → Reply} (hb : ∀ ps, (body ps s).1.pt.lawful) :
    pathsLawful (.next (runCommand code body s)) :=
  pathsLawful_next.mpr (runCommand_lawful h code hb)

/-- The row of a command whose work leaves the Path Table as it is. -/
theorem pathsLawful_runCommand_of_pt (code : Nat) {body : List Word → State → Reply}
    (hb : ∀ ps, (body ps s).1.pt = s.pt) : pathsLawful (.next (runCommand code body s)) :=
  pathsLawful_runCommand h code fun ps => (hb ps).symm ▸ h

/-! #### The management port, the device and its supplies -/

theorem execWordWrite_pathsLawful (w : Word) : pathsLawful (execWordWrite w s) := by
  unfold execWordWrite
  (repeat' split) <;> simpa using h

theorem execWordRead_pathsLawful : pathsLawful (execWordRead s) := by
  unfold execWordRead
  split <;> simpa using h

theorem execAbort_pathsLawful : pathsLawful (execAbort s) := by
  unfold execAbort
  (repeat' split) <;> simpa using h

theorem execWorkPhaseEnd_pathsLawful : pathsLawful (execWorkPhaseEnd s) := by
  unfold execWorkPhaseEnd
  dsimp only
  (repeat' split) <;> simpa using h

theorem execRestartComplete_pathsLawful : pathsLawful (execRestartComplete s) := by
  unfold execRestartComplete
  (repeat' split) <;> simpa using h

theorem execHardwareReset_pathsLawful (ns : Nat) : pathsLawful (execHardwareReset ns s) := by
  unfold execHardwareReset State.takeReset
  split <;> simpa using h

theorem execSupplyInvalid_pathsLawful (rail : Rail) : pathsLawful (execSupplyInvalid rail s) := by
  unfold execSupplyInvalid State.takeReset
  simpa using h

theorem execResetRelease_pathsLawful : pathsLawful (execResetRelease s) := by
  simpa [execResetRelease] using h

theorem execSupplyValid_pathsLawful : pathsLawful (execSupplyValid s) := by
  simpa [execSupplyValid] using h

theorem execStartupClearingEnd_pathsLawful : pathsLawful (execStartupClearingEnd s) := by
  unfold execStartupClearingEnd
  split
  · exact pathsLawful_next.mpr PathTable.reset_lawful
  · exact pathsLawful_next.mpr h

/-! #### The lanes -/

theorem execSignalDetected_pathsLawful (n : Fin 4) : pathsLawful (execSignalDetected n s) := by
  unfold execSignalDetected
  dsimp only
  split <;> simpa using h

theorem execAlignmentComplete_pathsLawful (n : Fin 4) : pathsLawful (execAlignmentComplete n s) := by
  unfold execAlignmentComplete
  split <;> simpa using h

theorem execSignalLost_pathsLawful (n : Fin 4) (cause : LossCause) : pathsLawful (execSignalLost n cause s) := by
  unfold execSignalLost
  dsimp only
  (repeat' split) <;> simpa using h

theorem execLookupN_pathsLawful (n : Fin 4) (tag : Byte) (d : Fin 16) (mark : Bool) (hash : BitVec 16) (k : BitVec 32) :
    pathsLawful (execLookupN n tag d mark hash k s) := by
  unfold execLookupN
  split <;> simpa using h

theorem execLookupW_pathsLawful (n : Fin 4) (tag : Byte) (d : Fin 16) (mark : Bool) (hash : BitVec 16) (k : BitVec 128) :
    pathsLawful (execLookupW n tag d mark hash k s) := by
  unfold execLookupW
  split <;> simpa using h

theorem execPort_pathsLawful (n : Fin 4) (p : Fin 64) (st : ReportedState) : pathsLawful (execPort n p st s) := by
  unfold execPort
  dsimp only
  (repeat' split) <;> simpa using h

theorem execCheckFailure_pathsLawful (n : Fin 4) (ws : List Word) : pathsLawful (execCheckFailure n ws s) := by
  unfold execCheckFailure
  split <;> simpa using h

theorem execMalformedMessage_pathsLawful (n : Fin 4) (ws : List Word) : pathsLawful (execMalformedMessage n ws s) := by
  unfold execMalformedMessage
  (repeat' split) <;> simpa using h

theorem execCreditSent_pathsLawful (n : Fin 4) : pathsLawful (execCreditSent n s) := by
  unfold execCreditSent
  (repeat' split) <;> simpa using h

theorem execResultSent_pathsLawful (n : Fin 4) : pathsLawful (execResultSent n s) := by
  unfold execResultSent
  (repeat' split) <;> simpa using h

/-! #### The Port Monitor -/

theorem execReportTaken_pathsLawful : pathsLawful (execReportTaken s) := by
  unfold execReportTaken
  dsimp only
  (repeat' split) <;> simpa using h

theorem execHoldDownExpiry_pathsLawful (p : Fin 64) : pathsLawful (execHoldDownExpiry p s) := by
  unfold execHoldDownExpiry
  dsimp only
  (repeat' split) <;> simpa using h

theorem execVisitClaim_pathsLawful (p : Fin 64) : pathsLawful (execVisitClaim p s) := by
  unfold execVisitClaim
  split
  case h_1 v _ =>
    rw [pathsLawful_next]
    split
    · exact State.visitPass_lawful h v
    · exact h
  case h_2 =>
    split
    · exact pathsLawful_next.mpr h
    · rw [pathsLawful_next]
      split
      · exact State.visitPass_lawful h _
      · exact h

/-! #### The search -/

theorem execGrant_pathsLawful : pathsLawful (execGrant s) := by
  unfold execGrant
  (repeat' split) <;> simpa using h

theorem execLookupClaim_pathsLawful : pathsLawful (execLookupClaim s) := by
  unfold execLookupClaim
  (repeat' split) <;> simpa using h

theorem execResolutionClaim_pathsLawful : pathsLawful (execResolutionClaim s) := by
  unfold execResolutionClaim
  (repeat' split) <;> simpa [State.finishResolution] using h

/-! #### The jobs -/

theorem execStepClaim_pathsLawful : pathsLawful (execStepClaim s) := by
  unfold execStepClaim
  split
  case h_1 =>
    split
    · exact pathsLawful_next.mpr h
    · split
      · rw [pathsLawful_next]
        split
        · simpa using State.makeStep_lawful h _ _ _
        · exact h
      · exact pathsLawful_next.mpr h
  case h_2 =>
    split
    · split
      · rw [pathsLawful_next]
        split
        · simpa using State.makeStep_lawful h _ _ _
        · exact h
      · exact pathsLawful_next.mpr h
    · exact pathsLawful_next.mpr h

theorem execRefillClaim_pathsLawful : pathsLawful (execRefillClaim s) := by
  unfold execRefillClaim
  split
  case h_1 =>
    split
    · exact pathsLawful_next.mpr h
    · split
      · rw [pathsLawful_next]
        split
        · exact PathTable.refill_lawful h _ _ _
        · exact h
      · exact pathsLawful_next.mpr h
  case h_2 n _ =>
    split
    · split
      · rw [pathsLawful_next]
        split
        · simpa using PathTable.refill_lawful ((s.pt.withdraw_lawful (.refill n)).mpr h) _ _ _
        · exact h
      · exact pathsLawful_next.mpr h
    · exact pathsLawful_next.mpr h

theorem execPinClaim_pathsLawful (n : Fin 4) : pathsLawful (execPinClaim n s) := by
  unfold execPinClaim
  split
  · split
    · rename_i t _
      rw [pathsLawful_next]
      split
      · simpa using PathTable.releasePin_lawful ((s.pt.withdraw_lawful (.pin n)).mpr h) t
      · exact h
    · exact pathsLawful_next.mpr h
  · exact pathsLawful_next.mpr h

/-- Every row keeps the law, by the block that it is a row of. -/
theorem exec_pathsLawful (i : Instr) : pathsLawful (exec i s) := by
  cases i with
  | wordWrite w => exact execWordWrite_pathsLawful h w
  | wordRead => exact execWordRead_pathsLawful h
  | abort => exact execAbort_pathsLawful h
  | workPhaseEnd => exact execWorkPhaseEnd_pathsLawful h
  | domainSet => exact pathsLawful_runCommand_of_pt h _ fun ps => domainSetWork_pt ps s
  | domainRead => exact pathsLawful_runCommand_of_pt h _ fun ps => domainReadWork_pt ps s
  | routeAdd => exact pathsLawful_runCommand h _ (routeAddWork_lawful h)
  | routeChange => exact pathsLawful_runCommand h _ (routeChangeWork_lawful h)
  | routeDrop => exact pathsLawful_runCommand h _ (routeDropWork_lawful h)
  | routeRead => exact pathsLawful_runCommand h _ (routeReadWork_lawful h)
  | routeFind => exact pathsLawful_runCommand_of_pt h _ fun ps => routeFindWork_pt ps s
  | exitCreate => exact pathsLawful_runCommand h _ (exitCreateWork_lawful h)
  | exitChange => exact pathsLawful_runCommand h _ (exitChangeWork_lawful h)
  | exitEnable => exact pathsLawful_runCommand h _ (exitAdminWork_lawful h true)
  | exitDisable => exact pathsLawful_runCommand h _ (exitAdminWork_lawful h false)
  | exitDelete => exact pathsLawful_runCommand h _ (exitDeleteWork_lawful h)
  | exitRead => exact pathsLawful_runCommand h _ (exitReadWork_lawful h)
  | setCreate => exact pathsLawful_runCommand h _ (setCreateWork_lawful h)
  | setChange => exact pathsLawful_runCommand h _ (setChangeWork_lawful h)
  | setDelete => exact pathsLawful_runCommand h _ (setDeleteWork_lawful h)
  | setRead => exact pathsLawful_runCommand_of_pt h _ fun ps => setReadWork_pt ps s
  | memberAdd => exact pathsLawful_runCommand h _ (memberAddWork_lawful h)
  | memberRemove => exact pathsLawful_runCommand h _ (memberRemoveWork_lawful h)
  | memberWeight => exact pathsLawful_runCommand h _ (memberWeightWork_lawful h)
  | setRefill => exact pathsLawful_runCommand h _ (setRefillWork_lawful h)
  | mapRead => exact pathsLawful_runCommand_of_pt h _ fun ps => mapReadWork_pt ps s
  | portForce => exact pathsLawful_runCommand h _ (portForceWork_lawful h)
  | portRead => exact pathsLawful_runCommand_of_pt h _ fun ps => portReadWork_pt ps s
  | laneEnable => exact pathsLawful_runCommand_of_pt h _ fun ps => laneEnableWork_pt ps s
  | laneDisable => exact pathsLawful_runCommand_of_pt h _ fun ps => laneDisableWork_pt ps s
  | laneRead => exact pathsLawful_runCommand_of_pt h _ fun ps => laneReadWork_pt ps s
  | laneWeight => exact pathsLawful_runCommand_of_pt h _ fun ps => laneWeightWork_pt ps s
  | probe => exact pathsLawful_runCommand_of_pt h _ fun ps => probeWork_pt ps s
  | jobStart => exact pathsLawful_runCommand h _ (jobStartWork_lawful h)
  | jobCancel => exact pathsLawful_runCommand h _ (jobCancelWork_lawful h)
  | jobRead => exact pathsLawful_runCommand_of_pt h _ fun ps => jobReadWork_pt ps s
  | collect => exact pathsLawful_runCommand_of_pt h _ fun ps => collectWork_pt ps s
  | attentionMask => exact pathsLawful_runCommand_of_pt h _ fun ps => attentionMaskWork_pt ps s
  | identify => exact pathsLawful_runCommand_of_pt h _ fun ps => identifyWork_pt ps s
  | setParameters => exact pathsLawful_runCommand_of_pt h _ fun ps => setParametersWork_pt ps s
  | readParameters => exact pathsLawful_runCommand_of_pt h _ fun ps => readParametersWork_pt ps s
  | readSpace => exact pathsLawful_runCommand_of_pt h _ fun ps => readSpaceWork_pt ps s
  | restart => exact pathsLawful_runCommand h _ (restartWork_lawful h)
  | restartComplete => exact execRestartComplete_pathsLawful h
  | signalDetected n => exact execSignalDetected_pathsLawful h n
  | alignmentComplete n => exact execAlignmentComplete_pathsLawful h n
  | signalLost n cause => exact execSignalLost_pathsLawful h n cause
  | lookupN n tag d mark hash k => exact execLookupN_pathsLawful h n tag d mark hash k
  | lookupW n tag d mark hash k => exact execLookupW_pathsLawful h n tag d mark hash k
  | port n p st => exact execPort_pathsLawful h n p st
  | checkFailure n ws => exact execCheckFailure_pathsLawful h n ws
  | malformedMessage n ws => exact execMalformedMessage_pathsLawful h n ws
  | creditSent n => exact execCreditSent_pathsLawful h n
  | resultSent n => exact execResultSent_pathsLawful h n
  | reportTaken => exact execReportTaken_pathsLawful h
  | holdDownExpiry p => exact execHoldDownExpiry_pathsLawful h p
  | visitClaim p => exact execVisitClaim_pathsLawful h p
  | grant => exact execGrant_pathsLawful h
  | lookupClaim => exact execLookupClaim_pathsLawful h
  | resolutionClaim => exact execResolutionClaim_pathsLawful h
  | stepClaim => exact execStepClaim_pathsLawful h
  | refillClaim => exact execRefillClaim_pathsLawful h
  | pinClaim n => exact execPinClaim_pathsLawful h n
  | hardwareReset ns => exact execHardwareReset_pathsLawful h ns
  | supplyInvalid rail => exact execSupplyInvalid_pathsLawful h rail
  | resetRelease => exact execResetRelease_pathsLawful h
  | supplyValid => exact execSupplyValid_pathsLawful h
  | startupClearingEnd => exact execStartupClearingEnd_pathsLawful h

end

/-- Settles O53: the step is an idle one, which changes no record of the Path Table, or a row's. -/
theorem bucketMapLawKept : Obligations.BucketMapLawKept := by
  intro s t h hstep
  unfold step at hstep
  split at hstep
  case h_1 =>
    cases hstep
    exact s.tick_lawful.mpr h
  case h_2 c rest _ => exact exec_pathsLawful (s := s.setPending rest) h c t hstep

end Sys2Proof.Machine
end

section
/-! PROOFS. The loss rule (R59), bucket by bucket: what the buckets are at each moment of the reassignment. -/

namespace Sys2Proof.Machine

/-- The members on the exits `others`, with the buckets that a map gives each. -/
def countsOf (others : List Nat) (map : List (Option Nat)) : List (Nat × Nat) :=
  others.map fun e => (e, bucketCount map e)

theorem mem_countsOf {others : List Nat} {map : List (Option Nat)} {c : Nat × Nat} :
    c ∈ countsOf others map ↔ c.1 ∈ others ∧ c.2 = bucketCount map c.1 := by
  rw [countsOf, List.mem_map]
  constructor
  · rintro ⟨e, he, rfl⟩
    exact ⟨he, rfl⟩
  · rintro ⟨he, hc⟩
    exact ⟨c.1, he, Prod.ext rfl hc.symm⟩

theorem mem_of_fewest {l : List (Nat × Nat)} {c : Nat × Nat} (h : fewest l = some c) : c ∈ l := by
  obtain ⟨before, after, rfl, -, -⟩ := fewest_some h
  simp

theorem PathSet.otherUp_eq_countsOf (p : PathSet) (x : Nat) :
    p.otherUp x = countsOf ((p.members.filter fun m => m.up && m.exit != x).map (·.exit)) p.map := by
  simp [PathSet.otherUp, countsOf]

/-- The count kept for each of the others is right again when one of the lost member's buckets has gone to one of them. -/
theorem countsOf_reassigned {lost : Nat} {others : List Nat} (hl : lost ∉ others) (before bs : List (Option Nat)) (x : Nat) :
    (countsOf others (before ++ some lost :: bs)).map (fun d => if d.1 == x then (d.1, d.2 + 1) else d)
      = countsOf others (before ++ some x :: bs) := by
  rw [countsOf, List.map_map]
  refine List.map_congr_left fun e he => ?_
  have hne : lost ≠ e := fun h => hl (h ▸ he)
  by_cases hx : e = x
  · simp [bucketCount, hx ▸ hne, hx, Nat.add_assoc]
  · simp [bucketCount, hne, hx, Ne.symm hx]

/-- What becomes of a bucket: the lost member's goes to the one of the others that holds the fewest. -/
def reassigned (lost : Nat) (counts : List (Nat × Nat)) (b : Option Nat) : Option Nat :=
  if b = some lost then (fewest counts).map (·.1) else b

/-- One bucket of the reassignment, the buckets before it being `before`: the rest goes on from the map as it then stands. -/
theorem reassign_cons {lost : Nat} {others : List Nat} (hl : lost ∉ others) (before : List (Option Nat)) (b : Option Nat)
    (bs : List (Option Nat)) :
    let b' := reassigned lost (countsOf others (before ++ b :: bs)) b
    reassign lost (countsOf others (before ++ b :: bs)) (b :: bs)
      = b' :: reassign lost (countsOf others (before ++ b' :: bs)) bs := by
  by_cases hb : b = some lost
  · subst hb
    cases hf : fewest (countsOf others (before ++ some lost :: bs)) with
    | none =>
      have hnil : others = [] := by simpa [countsOf] using fewest_none.mp hf
      simp [reassign, reassigned, fewest, countsOf, hnil]
    | some c => simp only [reassign, reassigned, if_true, hf, Option.map_some, countsOf_reassigned hl]
  · simp [reassign, reassigned, hb]

/-- A bucket of the lost member goes to the one of the others that holds the fewest at its moment, when the buckets before it
are reassigned and it and those after it are not. -/
theorem reassign_getElem?_lost {lost : Nat} {others : List Nat} (hl : lost ∉ others) (bs before : List (Option Nat)) {b : Nat}
    (hb : bs[b]? = some (some lost)) :
    let new := reassign lost (countsOf others (before ++ bs)) bs
    new[b]? = some ((fewest (countsOf others (before ++ (new.take b ++ bs.drop b)))).map (·.1)) := by
  induction bs generalizing before b with
  | nil => cases hb
  | cons x xs ih =>
    dsimp only
    rw [reassign_cons hl]
    cases b with
    | zero =>
      have hx : x = some lost := by simpa using hb
      simp [reassigned, hx]
    | succ b =>
      have ih := ih (before ++ [reassigned lost (countsOf others (before ++ x :: xs)) x]) (by simpa using hb)
      simpa using ih

/-- The buckets of the others stay. -/
theorem reassign_getElem?_other {lost : Nat} (counts : List (Nat × Nat)) (bs : List (Option Nat)) {b : Nat}
    (hb : bs[b]? ≠ some (some lost)) : (reassign lost counts bs)[b]? = bs[b]? := by
  induction bs generalizing counts b with
  | nil => rfl
  | cons x xs ih =>
    cases b with
    | zero =>
      have hx : x ≠ some lost := by simpa using hb
      simp [reassign, hx]
    | succ b =>
      have ih := fun counts => ih counts (b := b) (by simpa using hb)
      simp only [reassign]
      (repeat' split) <;> simpa using ih _

/-- The one chosen holds fewer than all before it in list order, and no more than those after it. -/
theorem fewest_countsOf {others : List Nat} {map : List (Option Nat)} {c : Nat × Nat} (hn : others.Nodup)
    (h : fewest (countsOf others map) = some c) {earlier later : List Nat} (ho : others = earlier ++ c.1 :: later) :
    (∀ x ∈ earlier, bucketCount map c.1 < bucketCount map x) ∧ ∀ x ∈ later, bucketCount map c.1 ≤ bucketCount map x := by
  obtain ⟨before, after, hsplit, hbefore, hafter⟩ := fewest_some h
  obtain ⟨-, hcount⟩ := mem_countsOf.mp (mem_of_fewest h)
  rw [ho, List.nodup_append, List.nodup_cons] at hn
  obtain ⟨-, ⟨hlater, -⟩, hdisjoint⟩ := hn
  have hearlier : c.1 ∉ earlier := fun he => hdisjoint c.1 he c.1 List.mem_cons_self rfl
  have hparts : countsOf earlier map ++ c :: countsOf later map = before ++ c :: after := by
    rw [← hsplit, ho, show c = (c.1, bucketCount map c.1) from Prod.ext rfl hcount]
    simp [countsOf]
  obtain ⟨rfl, -, rfl⟩ := (List.append_cons_inj_of_notMem (fun hc => hearlier (mem_countsOf.mp hc).1)
    fun hc => hlater (mem_countsOf.mp hc).1).mp hparts
  rw [← hcount]
  exact ⟨fun x hx => hbefore _ (List.mem_map_of_mem hx), fun x hx => hafter _ (List.mem_map_of_mem hx)⟩

/-- Settles O29: a bucket of the lost member becomes the one that `fewest` chooses with the buckets as they then stand, and
every other bucket is left. -/
theorem lossRuleReassigns : Obligations.LossRuleReassigns := by
  intro p lost hn others new
  have hnew : new = reassign lost (countsOf others p.map) p.map := by
    simp only [new, PathSet.lose, PathSet.otherUp_eq_countsOf, others]
  have hl : lost ∉ others := by
    simp [others]
  have hothers : others.Nodup := hn.sublist (List.filter_sublist.map _)
  refine ⟨by rw [hnew, reassign_length], fun b hb => hnew ▸ reassign_getElem?_other _ _ hb, fun b hb => ?_⟩
  have hchosen : new[b]? = some ((fewest (countsOf others (new.take b ++ p.map.drop b))).map (·.1)) :=
    hnew ▸ reassign_getElem?_lost hl p.map [] hb
  cases hf : fewest (countsOf others (new.take b ++ p.map.drop b)) with
  | none =>
    have hnil : others = [] := List.map_eq_nil_iff.mp (fewest_none.mp hf)
    rw [hf] at hchosen
    refine ⟨fun _ => hchosen, fun hne => absurd hnil hne, fun earlier e later ho => ?_⟩
    rw [hnil] at ho
    cases earlier <;> cases ho
  | some c =>
    rw [hf] at hchosen
    obtain ⟨hmem, -⟩ := mem_countsOf.mp (mem_of_fewest hf)
    refine ⟨fun hnil => ?_, fun _ => ⟨c.1, hmem, hchosen⟩, fun earlier e later ho he => ?_⟩
    · rw [hnil] at hmem
      cases hmem
    · obtain rfl : c.1 = e := by simpa [hchosen] using he
      exact fewest_countsOf hothers hf ho

end Sys2Proof.Machine
end

section
/-! PROOFS. The reports at the Port Monitor and the credits they owe (R99), under each change of PMON's line of claims. -/

namespace Sys2Proof.Machine

@[simp] theorem PortClaim.report?_expiry (p : Fin 64) : (PortClaim.expiry p).report? = none := by simp only [PortClaim.report?]
@[simp] theorem PortClaim.report?_command : PortClaim.command.report? = none := by simp only [PortClaim.report?]
@[simp] theorem PortClaim.report?_read : PortClaim.read.report? = none := by simp only [PortClaim.report?]

theorem PortClaim.report?_eq_some {c : PortClaim} {r : PortReport} : c.report? = some r ↔ c = .report r := by
  cases c <;> simp [PortClaim.report?]

section
variable (m : PortMonitor)

@[simp] theorem PortMonitor.setPort_reports (p : Fin 64) (x : Port) : (m.setPort p x).reports = m.reports := rfl

/-- A claim that is no report takes none with it. -/
@[simp] theorem PortMonitor.withdraw_reports {c : PortClaim} (hc : c.report? = none) : (m.withdraw c).reports = m.reports := by
  simp only [PortMonitor.reports, PortMonitor.withdraw, leaveLine_flatten, List.filterMap_filter]
  refine List.filterMap_congr fun x _ => ?_
  by_cases hx : x = c
  · simp [hx, hc]
  · simp [hx]

@[simp] theorem PortMonitor.offer_reports {c : PortClaim} (hc : c.report? = none) : (m.offer c).reports = m.reports := by
  simp only [PortMonitor.reports, PortMonitor.offer, offerLine_flatten]
  split
  · rfl
  · simp [hc]

@[simp] theorem PortMonitor.writePort_reports (p : Fin 64) (x : Port) : (m.writePort p x).reports = m.reports := by
  unfold PortMonitor.writePort
  split <;> simp

/-- A report that is handed to PMON is the last of them. -/
theorem PortMonitor.reports_joinLine (r : PortReport) :
    ({ m with waiting := joinLine (.report r) m.waiting } : PortMonitor).reports = m.reports ++ [r] := by
  simp [PortMonitor.reports, joinLine, PortClaim.report?]

theorem filterMap_report?_erase {g : List PortClaim} {r : PortReport} (h : g.findSome? PortClaim.report? = some r) :
    g.filterMap PortClaim.report? = r :: (g.erase (.report r)).filterMap PortClaim.report? := by
  induction g with
  | nil => cases h
  | cons c cs ih =>
    cases hc : c.report? with
    | some x =>
      obtain rfl : x = r := by simpa [hc] using h
      obtain rfl := PortClaim.report?_eq_some.mp hc
      simp [hc]
    | none =>
      have hne : c ≠ .report r := fun e => by simp [e, PortClaim.report?] at hc
      rw [List.erase_cons_tail (by simpa using hne), List.filterMap_cons_none hc, List.filterMap_cons_none hc]
      exact ih (by simpa [hc] using h)

/-- The report that is taken next is the first of them, and taking it takes no other. -/
theorem PortMonitor.reports_of_nextReport? {m : PortMonitor} {r : PortReport} (h : m.nextReport? = some r) :
    m.reports = r :: (m.popReport r).reports := by
  unfold PortMonitor.nextReport? at h
  cases hw : m.waiting with
  | nil => simp [hw] at h
  | cons g gs =>
    have hg := filterMap_report?_erase (g := g) (by simpa [hw] using h)
    simp only [PortMonitor.reports, PortMonitor.popReport, hw, List.flatten_cons, List.filterMap_append, hg, List.cons_append]
    split
    · rename_i he
      simp [List.isEmpty_iff.mp he]
    · simp

/-! ### The reports that will be credited -/

/-- The reports of the lane that PMON has not taken and will credit when it does (R99). -/
def PortMonitor.credited (m : PortMonitor) (n : Fin 4) : Nat := m.reports.countP fun r => r.lane == n && r.credit

theorem PortMonitor.credited_congr {m m' : PortMonitor} (h : m'.reports = m.reports) (n : Fin 4) :
    m'.credited n = m.credited n := by
  rw [PortMonitor.credited, h, PortMonitor.credited]

theorem PortMonitor.credited_none {m : PortMonitor} (h : m.reports = []) (n : Fin 4) : m.credited n = 0 := by
  simp [PortMonitor.credited, h]

/-- One report more is to be credited to its lane. -/
theorem PortMonitor.credited_joinLine (r : PortReport) (hr : r.credit = true) (n : Fin 4) :
    ({ m with waiting := joinLine (.report r) m.waiting } : PortMonitor).credited n
      = m.credited n + if n = r.lane then 1 else 0 := by
  rw [PortMonitor.credited, PortMonitor.reports_joinLine, List.countP_append, PortMonitor.credited, List.countP_singleton]
  simp [hr, eq_comm (a := n)]

/-- The report taken is one fewer to be credited to its lane, if it was to be. -/
theorem PortMonitor.credited_of_nextReport? {m : PortMonitor} {r : PortReport} (h : m.nextReport? = some r) (n : Fin 4) :
    m.credited n = (m.popReport r).credited n + if n = r.lane ∧ r.credit = true then 1 else 0 := by
  rw [PortMonitor.credited, PortMonitor.reports_of_nextReport? h, List.countP_cons, PortMonitor.credited]
  simp [eq_comm (a := n)]

theorem PortMonitor.orphan_reports (k : Fin 4) :
    (m.orphan k).reports = m.reports.map fun r => if r.lane == k then { r with credit := false } else r := by
  simp only [PortMonitor.reports, PortMonitor.orphan, ← List.map_flatten, List.filterMap_map, List.map_filterMap]
  refine List.filterMap_congr fun c _ => ?_
  cases c <;> rfl

/-- A lane that leaves UP is credited for no report, the others as before (R93, R99). -/
theorem PortMonitor.orphan_credited (k n : Fin 4) : (m.orphan k).credited n = if n = k then 0 else m.credited n := by
  rw [PortMonitor.credited, PortMonitor.orphan_reports, List.countP_map, PortMonitor.credited]
  split
  · subst k
    refine List.countP_eq_zero.mpr fun r _ => ?_
    by_cases hr : r.lane = n <;> simp [hr]
  · rename_i hn
    refine List.countP_congr fun r _ => ?_
    by_cases hr : r.lane = k
    · simp [hr, Ne.symm hn]
    · simp [hr]

/-- RESTART's part in the lanes: no report is credited any more. -/
theorem PortMonitor.orphan_fours_credited (n : Fin 4) : (fours.foldl PortMonitor.orphan m).credited n = 0 := by
  simp only [fours, List.foldl_cons, List.foldl_nil, PortMonitor.orphan_credited]
  fin_cases n <;> rfl

end

end Sys2Proof.Machine
end

section
/-! PROOFS. The law of R101 for one lane, with the number of its reports at PMON that will be credited (R94 to R100). -/

namespace Sys2Proof.Machine

/-- The part of one lane in `State.creditsConserved`: in UP its five quantities make `total`, and `reports` of the reports at
PMON will be credited to it. Between a message's credit and what becomes of the message the total is one fewer (R94). -/
def Lane.balanced (l : Lane) (total reports : Nat) : Prop :=
  (l.link = .up → l.credits = total) ∧
  (l.link ≠ .up → l.queue = [] ∧ l.reportsPending = 0 ∧ l.sending = none) ∧
  l.reportsPending = reports ∧ (l.sending = some .result → l.headDone = true)

theorem Lane.headDone_iff {l : Lane} :
    l.headDone = true ↔ ∃ e rest r, l.queue = e :: rest ∧ e.status = .done r := by
  unfold Lane.headDone
  split
  · rename_i tag ask r rest h
    simp [h]
  · rename_i h
    refine iff_of_false (by simp) fun ⟨⟨tag, ask, _⟩, rest, r, hq, hr⟩ => ?_
    exact h tag ask r rest (by rw [hq, ← hr])

/-- A change of the queue that leaves a DONE oldest entry one keeps the oldest entry of a lane DONE. -/
theorem Lane.headDone_of_queue {l l' : Lane}
    (hq : ∀ e rest r, l.queue = e :: rest → e.status = .done r → ∃ rest', l'.queue = e :: rest')
    (h : l.headDone = true) : l'.headDone = true := by
  obtain ⟨e, rest, r, he, hr⟩ := Lane.headDone_iff.mp h
  obtain ⟨rest', he'⟩ := hq e rest r he hr
  exact Lane.headDone_iff.mpr ⟨e, rest', r, he', hr⟩

/-! ### Off UP -/

theorem Lane.balanced_of_empty {l : Lane} (hl : l.link ≠ .up) (hq : l.queue = []) (hp : l.reportsPending = 0)
    (hs : l.sending = none) (total : Nat) : l.balanced total 0 :=
  ⟨fun h => absurd h hl, fun _ => ⟨hq, hp, hs⟩, hp, fun h => by simp [hs] at h⟩

/-- A lane that moves between the states other than UP holds nothing before and after. -/
theorem Lane.balanced_relink {l l' : Lane} {total reports : Nat} (h : l.balanced total reports) (hl : l.link ≠ .up)
    (hl' : l'.link ≠ .up) (hq : l'.queue = l.queue) (hp : l'.reportsPending = l.reportsPending)
    (hs : l'.sending = l.sending) : l'.balanced total reports := by
  obtain ⟨-, hoff, rfl, -⟩ := h
  obtain ⟨hq0, hp0, hs0⟩ := hoff hl
  rw [hp0]
  exact Lane.balanced_of_empty hl' (hq.trans hq0) (hp.trans hp0) (hs.trans hs0) total

/-- A lane that enters UP owes its client 32 credits and nothing else (R92). -/
theorem Lane.balanced_enterUp {l : Lane} {reports : Nat} (h : l.balanced 32 reports) (hl : l.link ≠ .up) :
    ({ l with link := .up, held := 0, owed := Config.creditLimit } : Lane).balanced 32 reports := by
  obtain ⟨-, hoff, rfl, -⟩ := h
  obtain ⟨hq, hp, hs⟩ := hoff hl
  exact ⟨fun _ => by simp [Lane.credits, Lane.transit, hq, hp, hs, Config.creditLimit], fun h => absurd rfl h, rfl,
    fun h => by simp [hs] at h⟩

/-! ### In UP -/

theorem Lane.balanced_iff_of_up {l : Lane} (hl : l.link = .up) {total reports : Nat} :
    l.balanced total reports ↔
      l.credits = total ∧ l.reportsPending = reports ∧ (l.sending = some .result → l.headDone = true) := by
  simp [Lane.balanced, hl]

theorem Lane.balanced_of_up {l : Lane} {total reports : Nat} (hl : l.link = .up) (hc : l.credits = total)
    (hr : l.reportsPending = reports) (hs : l.sending = some .result → l.headDone = true) : l.balanced total reports :=
  (Lane.balanced_iff_of_up hl).mpr ⟨hc, hr, hs⟩

/-- A report that will be credited is one of a lane in UP. -/
theorem Lane.up_of_reports {l : Lane} {total reports : Nat} (h : l.balanced total (reports + 1)) : l.link = .up := by
  obtain ⟨-, hoff, hr, -⟩ := h
  by_contra hl
  obtain ⟨-, hp, -⟩ := hoff hl
  omega

section
variable {l : Lane} {reports : Nat} (hl : l.link = .up)
include hl

theorem Lane.balanced_spend (h : l.balanced 32 reports) (hh : 0 < l.held) : l.spend.balanced 31 reports := by
  obtain ⟨hc, hr, hs⟩ := (Lane.balanced_iff_of_up hl).mp h
  refine Lane.balanced_of_up hl ?_ hr hs
  show l.held - 1 + l.queue.length + l.reportsPending + l.owed + l.transit = 31
  unfold Lane.credits at hc
  omega

theorem Lane.balanced_owe (h : l.balanced 31 reports) : l.owe.balanced 32 reports := by
  obtain ⟨hc, hr, hs⟩ := (Lane.balanced_iff_of_up hl).mp h
  refine Lane.balanced_of_up hl ?_ hr hs
  show l.held + l.queue.length + l.reportsPending + min (l.owed + 1) 32 + l.transit = 32
  unfold Lane.credits at hc
  omega

/-- With a credit taken for a message there is room for it in the queue and among the reports (R98 finds no overrun). -/
theorem Lane.room_of_balanced (h : l.balanced 31 reports) : l.queue.length < 32 ∧ l.reportsPending < 32 := by
  obtain ⟨hc, -, -⟩ := (Lane.balanced_iff_of_up hl).mp h
  unfold Lane.credits at hc
  omega

theorem Lane.balanced_enqueue (h : l.balanced 31 reports) (tag : Byte) (ask : Option Ask) :
    (l.enqueue tag ask).balanced 32 reports := by
  obtain ⟨hc, hr, hs⟩ := (Lane.balanced_iff_of_up hl).mp h
  refine Lane.balanced_of_up hl ?_ hr fun hsend => ?_
  · show l.held + (l.queue ++ [_]).length + l.reportsPending + l.owed + l.transit = 32
    rw [List.length_append, List.length_singleton]
    unfold Lane.credits at hc
    omega
  · exact Lane.headDone_of_queue (fun e rest r hq _ => ⟨rest ++ [⟨tag, ask, .waiting⟩], by simp [Lane.enqueue, hq]⟩) (hs hsend)

theorem Lane.balanced_report (h : l.balanced 31 reports) :
    ({ l with reportsPending := l.reportsPending + 1 } : Lane).balanced 32 (reports + 1) := by
  obtain ⟨hc, hr, hs⟩ := (Lane.balanced_iff_of_up hl).mp h
  refine Lane.balanced_of_up hl ?_ (congrArg (· + 1) hr) hs
  show l.held + l.queue.length + (l.reportsPending + 1) + l.owed + l.transit = 32
  unfold Lane.credits at hc
  omega

theorem Lane.balanced_creditSent {c : Nat} (h : l.balanced 32 reports) (hsend : l.sending = some (.credit c)) :
    ({ l with sending := none, held := min (l.held + c) Config.creditLimit } : Lane).balanced 32 reports := by
  obtain ⟨hc, hr, -⟩ := (Lane.balanced_iff_of_up hl).mp h
  refine Lane.balanced_of_up hl ?_ hr fun h => by cases h
  show min (l.held + c) 32 + l.queue.length + l.reportsPending + l.owed + 0 = 32
  simp only [Lane.credits, Lane.transit, hsend] at hc
  omega

/-- The RESULT that was sent is of an entry of the queue, whose credit goes back with it. -/
theorem Lane.balanced_resultSent (h : l.balanced 32 reports) (hsend : l.sending = some .result) (sent : Nat) :
    ({ l with sending := none, queue := l.queue.tail, resultsSent := sent, held := satInc Config.creditLimit l.held } :
      Lane).balanced 32 reports := by
  obtain ⟨hc, hr, hs⟩ := (Lane.balanced_iff_of_up hl).mp h
  obtain ⟨e, rest, r, hq, -⟩ := Lane.headDone_iff.mp (hs hsend)
  refine Lane.balanced_of_up hl ?_ hr fun h => by cases h
  show min (l.held + 1) 32 + l.queue.tail.length + l.reportsPending + l.owed + 0 = 32
  simp only [Lane.credits, Lane.transit, hsend, hq, List.length_cons] at hc
  rw [hq, List.tail_cons]
  omega

end

/-! ### In every state -/

/-- The transmitter sends a RESULT only of a DONE oldest entry. -/
theorem Lane.balanced_startNext {l : Lane} {total reports : Nat} (h : l.balanced total reports) :
    l.startNext.balanced total reports := by
  by_cases hl : l.link = .up
  · obtain ⟨hc, hr, hs⟩ := (Lane.balanced_iff_of_up hl).mp h
    refine Lane.balanced_of_up (l.startNext_link.trans hl) (l.startNext_credits.trans hc)
      (l.startNext_reportsPending.trans hr) ?_
    rcases l.startNext_cases with ⟨-, -, -, he⟩ | ⟨-, -, -, hdone, he⟩ | he <;> rw [he]
    · exact fun hresult => by cases hresult
    · exact fun _ => hdone
    · exact hs
  · rwa [show l.startNext = l by simp [Lane.startNext, hl]]

/-- A change of entries in their places that leaves a DONE oldest entry as it is. -/
theorem Lane.balanced_requeue {l : Lane} {total reports : Nat} (h : l.balanced total reports) {q : List Entry}
    (hlen : q.length = l.queue.length)
    (hhead : ∀ e rest r, l.queue = e :: rest → e.status = .done r → ∃ rest', q = e :: rest') :
    ({ l with queue := q } : Lane).balanced total reports := by
  obtain ⟨hup, hoff, hr, hs⟩ := h
  refine ⟨fun hl => ?_, fun hl => ?_, hr, fun hsend => Lane.headDone_of_queue hhead (hs hsend)⟩
  · rw [← hup hl]
    simp [Lane.credits, Lane.transit, hlen]
  · obtain ⟨hq, hp, hn⟩ := hoff hl
    exact ⟨List.length_eq_zero_iff.mp (by simp [hlen, hq]), hp, hn⟩

theorem Lane.balanced_finish {l : Lane} {total reports : Nat} (h : l.balanced total reports) (r : Result) :
    (l.finish r).balanced total reports :=
  Lane.balanced_requeue h (by simp) fun e rest _ hq he => by simp [hq, he]

theorem grantOldest_length (q : List Entry) : (grantOldest q).length = q.length := by
  induction q with
  | nil => rfl
  | cons e es ih =>
    unfold grantOldest
    split <;> simp [ih]

theorem Lane.balanced_grantOldest {l : Lane} {total reports : Nat} (h : l.balanced total reports) :
    ({ l with queue := grantOldest l.queue } : Lane).balanced total reports :=
  Lane.balanced_requeue h (grantOldest_length _) fun e rest _ hq he => by simp [hq, he, grantOldest]

/-- A report taken that is to be credited: one fewer pending, one credit more owed (R99). -/
theorem Lane.balanced_reportTaken {l : Lane} {reports : Nat} (h : l.balanced 32 (reports + 1)) :
    l.reportTaken.balanced 32 reports := by
  have hl : l.link = .up := Lane.up_of_reports h
  obtain ⟨hc, hr, hs⟩ := (Lane.balanced_iff_of_up hl).mp h
  have htaken : ({ l with reportsPending := l.reportsPending - 1 } : Lane).balanced 31 reports := by
    refine Lane.balanced_of_up hl ?_ ?_ hs
    · show l.held + l.queue.length + (l.reportsPending - 1) + l.owed + l.transit = 31
      unfold Lane.credits at hc
      omega
    · show l.reportsPending - 1 = reports
      omega
  exact Lane.balanced_startNext (Lane.balanced_owe hl htaken)

end Sys2Proof.Machine
end

section
/-! PROOFS. The law of R101 on the state, under the shared operations of the lanes, the search and the resets. -/

namespace Sys2Proof.Machine

/-! ### RESTART's holds -/

/-- The command stands where RESTART's holds are in force in the lanes (R183). -/
def Progress.restarts : Progress → Bool
  | .restartLeft | .restartPorts | .restarting => true
  | _ => false

theorem State.restarting_congr {s t : State} (h : t.cu = s.cu) : t.restarting = s.restarting := by
  simp only [State.restarting, h]

section
variable (s : State)

theorem State.restarting_of_busy {ws : List Word} {p : Progress} (h : s.cu = .busy ws p) : s.restarting = p.restarts := by
  cases p <;> simp [State.restarting, Progress.restarts, h]

@[simp] theorem State.setCu_busy_restarting (ws : List Word) (p : Progress) :
    (s.setCu (.busy ws p)).restarting = p.restarts :=
  (s.setCu (.busy ws p)).restarting_of_busy rfl

@[simp] theorem State.progressTo_restarting (ws : List Word) (p : Progress) :
    (s.progressTo ws p).restarting = p.restarts :=
  State.setCu_busy_restarting _ ws p

@[simp] theorem State.await_restarting (w : Word) (ps : List Word) : (s.await w ps).restarting = false :=
  (s.await w ps).restarting_of_busy (p := .waiting) rfl

@[simp] theorem State.post_restarting (p : Posting) : (s.post p).restarting = s.restarting := State.restarting_congr (by simp)

theorem State.restarting_of_portsHeld (h : s.portsHeld = true) : s.restarting = true := by
  unfold State.portsHeld at h
  split at h
  · exact s.restarting_of_busy ‹_›
  · cases h

/-- The end of a cancelled job's slot answers a JOB CANCEL, no RESTART. -/
@[simp] theorem State.settleCancel_restarting : s.settleCancel.restarting = s.restarting := by
  unfold State.settleCancel
  split
  · rename_i ws n h
    rw [State.setCu_busy_restarting, s.restarting_of_busy h]
    unfold State.cancelProgress
    split <;> rfl
  · rfl

@[simp] theorem State.finishStep_restarting (n : Fin 4) (j : Job) : (s.finishStep n j).restarting = s.restarting := by
  rw [State.finishStep, State.restarting_congr (State.presentStep_cu _ _), State.settleCancel_restarting,
    State.restarting_congr (State.beginEnding_cu _ _), State.restarting_congr (State.setSlot_cu _ _ _)]

@[simp] theorem State.stepMade_restarting (n : Fin 4) (j : Job) (k : Option Job) :
    (s.stepMade n j k).restarting = s.restarting := by
  cases k with
  | none => rfl
  | some k => exact s.finishStep_restarting n k

end

/-! ### The law in its parts -/

/-- The part of the lanes with the reports at PMON. -/
def State.lanesBalanced (s : State) : Prop := ∀ n, (s.lane n).balanced 32 (s.pmon.credited n)

def State.lanesDisabled (s : State) : Prop := ∀ n, (s.lane n).link = .disabled

theorem State.creditsConserved_iff (s : State) :
    s.creditsConserved ↔ s.lanesBalanced ∧ (s.restarting = true → s.lanesDisabled) := Iff.rfl

/-- A state whose lanes hold what those of another hold, and whose PMON will credit as many reports, with RESTART's holds in
force only if they are there. -/
def State.sameCredits (s t : State) : Prop :=
  t.lanes = s.lanes ∧ (∀ n, t.pmon.credited n = s.pmon.credited n) ∧ (t.restarting = true → s.restarting = true)

theorem State.lane_congr {s t : State} (h : t.lanes = s.lanes) (n : Fin 4) : t.lane n = s.lane n := by
  simp only [State.lane, h]

theorem State.lanesBalanced_congr {s t : State} (h : s.lanesBalanced) (hl : t.lanes = s.lanes)
    (hc : ∀ n, t.pmon.credited n = s.pmon.credited n) : t.lanesBalanced := fun n => by
  rw [State.lane_congr hl, hc]
  exact h n

theorem State.lanesDisabled_congr {s t : State} (h : s.lanesDisabled) (hl : t.lanes = s.lanes) : t.lanesDisabled :=
  fun n => by rw [State.lane_congr hl, h n]

@[simp] theorem State.setSu_conserved (s : State) (x : SearchUnit) : (s.setSu x).creditsConserved ↔ s.creditsConserved :=
  Iff.rfl
@[simp] theorem State.setPt_conserved (s : State) (x : PathTable) : (s.setPt x).creditsConserved ↔ s.creditsConserved :=
  Iff.rfl
@[simp] theorem State.setRs_conserved (s : State) (x : RouteStore) : (s.setRs x).creditsConserved ↔ s.creditsConserved :=
  Iff.rfl

section
variable {s : State} (h : s.creditsConserved)
include h

theorem State.balanced_of_conserved (n : Fin 4) : (s.lane n).balanced 32 (s.pmon.credited n) := h.1 n

theorem State.creditsConserved_of_same {t : State} (hs : s.sameCredits t) : t.creditsConserved := by
  obtain ⟨hb, hd⟩ := h
  obtain ⟨hl, hc, hr⟩ := hs
  exact ⟨State.lanesBalanced_congr hb hl hc, fun ht => State.lanesDisabled_congr (hd (hr ht)) hl⟩

/-- A change elsewhere than in the lanes, the reports and the CU. -/
theorem State.creditsConserved_of_fields {t : State} (hl : t.lanes = s.lanes) (hp : t.pmon.reports = s.pmon.reports)
    (hr : t.restarting = true → s.restarting = true) : t.creditsConserved :=
  State.creditsConserved_of_same h ⟨hl, PortMonitor.credited_congr hp, hr⟩

/-- During RESTART no lane is UP. -/
theorem State.not_restarting_of_up {n : Fin 4} (hl : (s.lane n).link = .up) : s.restarting = false := by
  obtain ⟨-, hd⟩ := h
  by_contra hr
  have hn := hd (by simpa using hr) n
  rw [hl] at hn
  cases hn

theorem State.post_conserved (p : Posting) : (s.post p).creditsConserved :=
  State.creditsConserved_of_fields h (by simp) (by simp) (by simp)

end

/-! ### A change of one lane -/

@[simp] theorem State.setPmon_lane (s : State) (m : PortMonitor) (n : Fin 4) : (s.setPmon m).lane n = s.lane n := rfl

section
variable {s : State}

/-- One lane changes, with the reports that will be credited to it. -/
theorem State.lanesBalanced_of_lane (h : s.lanesBalanced) {t : State} (n : Fin 4)
    (hm : ∀ m, m ≠ n → t.lane m = s.lane m ∧ t.pmon.credited m = s.pmon.credited m)
    (hn : (t.lane n).balanced 32 (t.pmon.credited n)) : t.lanesBalanced := fun m => by
  by_cases he : m = n
  · exact he ▸ hn
  · obtain ⟨hl, hc⟩ := hm m he
    rw [hl, hc]
    exact h m

theorem State.updLane_lanesBalanced (h : s.lanesBalanced) {n : Fin 4} {f : Lane → Lane}
    (hf : (f (s.lane n)).balanced 32 (s.pmon.credited n)) : (s.updLane n f).lanesBalanced :=
  State.lanesBalanced_of_lane h n (fun _ hm => ⟨s.updLane_lane_ne f hm, rfl⟩) (by simpa using hf)

theorem State.leaveUp_lanesBalanced (h : s.lanesBalanced) (n : Fin 4) {x : Link} (hx : x ≠ .up) :
    (s.leaveUp n x).lanesBalanced := by
  have hc : ∀ m, (s.leaveUp n x).pmon.credited m = if m = n then 0 else s.pmon.credited m :=
    PortMonitor.orphan_credited s.pmon n
  have hl : ∀ m, (s.leaveUp n x).lane m = if m = n then { (s.lane n).leaveUp with link := x } else s.lane m :=
    fun m => s.updLane_lane n m fun l => { l.leaveUp with link := x }
  refine State.lanesBalanced_of_lane h n (fun m hm => ⟨by rw [hl, if_neg hm], by rw [hc, if_neg hm]⟩) ?_
  rw [hc, hl, if_pos rfl, if_pos rfl]
  exact Lane.balanced_of_empty hx rfl rfl rfl 32

variable (h : s.creditsConserved)
include h

theorem State.updLane_conserved {n : Fin 4} {f : Lane → Lane} (hf : (f (s.lane n)).balanced 32 (s.pmon.credited n))
    (hl : (s.lane n).link = .disabled → (f (s.lane n)).link = .disabled) : (s.updLane n f).creditsConserved := by
  obtain ⟨hb, hd⟩ := h
  refine ⟨State.updLane_lanesBalanced hb hf, fun hr m => ?_⟩
  rw [State.updLane_lane]
  split
  · exact hl (hd hr n)
  · exact hd hr m

theorem State.leaveUp_conserved {n : Fin 4} (hl : (s.lane n).link = .up) {x : Link} (hx : x ≠ .up) :
    (s.leaveUp n x).creditsConserved := by
  refine ⟨State.leaveUp_lanesBalanced ((s.creditsConserved_iff.mp h).1) n hx, fun hr => ?_⟩
  have hno : s.restarting = false := State.not_restarting_of_up h hl
  rw [show (s.leaveUp n x).restarting = s.restarting from rfl, hno] at hr
  cases hr

end

theorem Lane.balanced_detect {l : Lane} {total reports : Nat} (h : l.balanced total reports) (c : Bool) :
    (if l.link == .down && l.signal && c then { l with link := .aligning } else l).balanced total reports := by
  split
  · rename_i hd
    simp only [Bool.and_eq_true, beq_iff_eq] at hd
    obtain ⟨⟨hl, -⟩, -⟩ := hd
    exact Lane.balanced_relink h (by simp [hl]) (by simp) rfl rfl rfl
  · exact h

theorem State.detect_lanesBalanced {s : State} (h : s.lanesBalanced) (n : Fin 4) : (s.detect n).lanesBalanced :=
  State.updLane_lanesBalanced h (Lane.balanced_detect (h n) s.dev.refclk)

section
variable {s : State} (h : s.creditsConserved)
include h

theorem State.detect_conserved (n : Fin 4) : (s.detect n).creditsConserved :=
  State.updLane_conserved h (Lane.balanced_detect (State.balanced_of_conserved h n) s.dev.refclk) fun hl => by simp [hl]

/-! ### The search -/

theorem State.handBack_conserved (source : Source) (bucket : Nat) (r : Result) :
    (s.handBack source bucket r).creditsConserved := by
  unfold State.handBack
  cases source with
  | lane n =>
    exact State.updLane_conserved ((s.setSu_conserved _).mpr h)
      (Lane.balanced_startNext (Lane.balanced_finish (State.balanced_of_conserved h n) r))
      fun hl => (Lane.startNext_link _).trans hl
  | probe =>
    dsimp only
    split
    · exact State.creditsConserved_of_fields h rfl rfl (by simp [Progress.restarts])
    · exact h

theorem State.grantLane_conserved (n : Fin 4) (allowance : Nat) : (s.grantLane n allowance).creditsConserved := by
  have hg : (s.updLane n fun l => { l with queue := grantOldest l.queue }).creditsConserved :=
    State.updLane_conserved h (Lane.balanced_grantOldest (State.balanced_of_conserved h n)) id
  unfold State.grantLane
  split
  · exact h
  · dsimp only
    split
    · exact State.handBack_conserved ((State.setSu_conserved _ _).mpr hg) _ _ _
    · exact hg

theorem State.lookupClaim_conserved (k : Lookup) : (s.lookupClaim k).creditsConserved := by
  unfold State.lookupClaim
  dsimp only
  split
  · exact State.handBack_conserved h _ _ _
  · split
    · exact State.handBack_conserved h _ _ _
    · split
      · exact State.handBack_conserved ((s.setRs_conserved _).mpr h) _ _ _
      · exact State.handBack_conserved ((s.setRs_conserved _).mpr h) _ _ _
      · exact h

theorem State.finishResolution_conserved {m : PortMonitor} (hm : m.reports = s.pmon.reports) :
    (s.finishResolution m).creditsConserved :=
  State.creditsConserved_of_fields h rfl hm id

theorem State.resolution_conserved (source : Source) (ask : Ask) (len : Nat) (target : Target) (tag : BitVec 16)
    (miss : DropVerdict) : (s.resolution source ask len target tag miss).creditsConserved := by
  have hreads := PortMonitor.readPorts_reports (s.pt.resolvePort target) s.pmon
  rcases s.resolution_cases source ask len target tag miss with ⟨-, he⟩ | ⟨-, he⟩ <;> rw [he]
  · exact State.handBack_conserved (State.finishResolution_conserved h hreads) _ _ _
  · exact State.creditsConserved_of_fields h rfl hreads id

end

/-! ### RESTART, the reset and the clearing: no lane is UP and no report will be credited -/

theorem State.conserved_of_idle {t : State} (hl : ∀ n, (t.lane n).link = .disabled ∧ (t.lane n).queue = [] ∧
      (t.lane n).reportsPending = 0 ∧ (t.lane n).sending = none) (hc : ∀ n, t.pmon.credited n = 0) :
    t.lanesBalanced ∧ t.lanesDisabled := by
  refine ⟨fun n => ?_, fun n => (hl n).1⟩
  obtain ⟨hlink, hq, hp, hs⟩ := hl n
  rw [hc]
  exact Lane.balanced_of_empty (by simp [hlink]) hq hp hs 32

theorem State.abandonWork_conserved (s : State) : s.abandonWork.creditsConserved := by
  obtain ⟨hb, hd⟩ := State.conserved_of_idle (t := s.abandonWork)
    (fun n => by simp [State.abandonWork, State.lane, Lane.leaveUp]) (PortMonitor.credited_none rfl)
  exact ⟨hb, fun _ => hd⟩

theorem State.cleared_conserved (s : State) : s.cleared.creditsConserved := by
  obtain ⟨hb, hd⟩ := State.conserved_of_idle (t := s.cleared)
    (fun n => by simp [State.cleared, State.lane, Lane.reset]) (PortMonitor.credited_none rfl)
  exact ⟨hb, fun _ => hd⟩

theorem State.restartUnits_emptiesLanes (s : State) : s.restartUnits.lanesBalanced ∧ s.restartUnits.lanesDisabled :=
  State.conserved_of_idle (fun n => by simp [State.restartUnits, State.lane, Lane.restart, Lane.reset])
    s.pmon.orphan_fours_credited

end Sys2Proof.Machine
end

section
/-! PROOFS. The law of R101 under the work of each host command. All but those of chapter 5 and RESTART leave the lanes and
the reports at PMON alone. -/

namespace Sys2Proof.Machine

/-! ### What the shared operations leave of the reports -/

section
variable (s : State)

@[simp] theorem State.portClaim_reports (p : Fin 64) (f : Port → Port) : (s.portClaim p f).pmon.reports = s.pmon.reports := by
  unfold State.portClaim
  dsimp only
  split <;> simp

@[simp] theorem State.passTo_reports (v : Visit) (x : Pass) : (s.passTo v x).pmon.reports = s.pmon.reports := by
  unfold State.passTo
  split <;> simp

@[simp] theorem State.visitPass_reports (v : Visit) : (s.visitPass v).pmon.reports = s.pmon.reports := by
  rcases s.visitPass_cases v with ⟨-, he⟩ | ⟨place, -, ⟨-, he⟩ | ⟨-, he⟩⟩ <;> simp [he]

@[simp] theorem State.writeHoldDown_reports (x : Option Nat) : (s.writeHoldDown x).pmon.reports = s.pmon.reports := by
  cases x <;> rfl

@[simp] theorem State.dropClaims_reports : s.dropClaims.pmon.reports = s.pmon.reports := by
  simp [State.dropClaims]

@[simp] theorem State.progressTo_reports (ws : List Word) (p : Progress) :
    (s.progressTo ws p).pmon.reports = s.pmon.reports := by
  unfold State.progressTo
  split <;> simp

@[simp] theorem State.await_reports (w : Word) (ps : List Word) : (s.await w ps).pmon.reports = s.pmon.reports := by
  simp only [State.await, State.setPmon_pmon]
  split <;> simp

end

/-! ### Work that leaves the lanes and the reports alone -/

/-- The work leaves the lanes and the reports at PMON as in `s`, and the command is no RESTART with parts made. -/
def Reply.keepsCredits (r : Reply) (s : State) : Prop :=
  r.1.lanes = s.lanes ∧ r.1.pmon.reports = s.pmon.reports ∧ r.2.restarts = false

@[simp] theorem refuse_keepsCredits (s : State) (c : ResultCode) : (refuse s c).keepsCredits s := ⟨rfl, rfl, rfl⟩

@[simp] theorem answerOk_keepsCredits {s t : State} {ws : List Word} :
    (answerOk t ws).keepsCredits s ↔ t.lanes = s.lanes ∧ t.pmon.reports = s.pmon.reports := by
  simp [Reply.keepsCredits, Progress.restarts]

@[simp] theorem answerRoute_keepsCredits (s : State) (r : Option Route) : (answerRoute s r).keepsCredits s := by
  cases r <;> simp [answerRoute]

section
variable {s : State}

theorem State.withReference_keepsCredits (refers : Bool) {work : State → Reply}
    (hw : ∀ t : State, t.lanes = s.lanes → t.pmon = s.pmon → (work t).keepsCredits s) :
    (s.withReference refers work).keepsCredits s := by
  rcases s.withReference_cases refers work with ⟨-, he⟩ | ⟨-, -, he⟩ | ⟨-, -, he⟩ <;> rw [he]
  · exact hw s rfl rfl
  · exact hw _ rfl rfl
  · exact ⟨rfl, rfl, rfl⟩

theorem State.withReads_keepsCredits (ports : List (Fin 64)) {work : List Bool → State → Reply}
    (hw : ∀ reads (t : State), t.lanes = s.lanes → t.pmon.reports = s.pmon.reports → (work reads t).keepsCredits s) :
    (s.withReads ports work).keepsCredits s := by
  have hr := PortMonitor.readPorts_reports (ports.drop s.pt.reads.length) s.pmon
  rcases s.withReads_cases ports work with ⟨-, he⟩ | ⟨-, he⟩ <;> rw [he]
  · exact hw _ _ rfl hr
  · exact ⟨rfl, hr, rfl⟩

theorem withIdentity_keepsCredits {α : Type} (ps : List Word) (others : Nat) (more : Identity → Option α)
    {work : Identity → α → Reply} (hw : ∀ i a, (work i a).keepsCredits s) :
    (withIdentity ps others more s work).keepsCredits s := by
  unfold withIdentity
  (repeat' split) <;> simp [hw]

end

section
variable (ps : List Word) (s : State)

/-! #### Chapter 1 -/

theorem domainSetWork_keepsCredits : (domainSetWork ps s).keepsCredits s := by
  unfold domainSetWork; dsimp only; split <;> simp
theorem domainReadWork_keepsCredits : (domainReadWork ps s).keepsCredits s := by
  unfold domainReadWork; split <;> simp

theorem routeAddWork_keepsCredits : (routeAddWork ps s).keepsCredits s :=
  withIdentity_keepsCredits ps _ _ fun i a => State.withReference_keepsCredits _ fun t hl hp => by
    unfold addRoute
    (repeat' split) <;> simp [Reply.keepsCredits, Progress.restarts, hl, hp]

theorem routeChangeWork_keepsCredits : (routeChangeWork ps s).keepsCredits s := by
  refine withIdentity_keepsCredits ps _ _ fun i c => ?_
  split
  · simp
  · refine State.withReference_keepsCredits _ fun t hl hp => ?_
    unfold changeRoute
    split <;> simp [Reply.keepsCredits, Progress.restarts, hl, hp]

theorem routeDropWork_keepsCredits : (routeDropWork ps s).keepsCredits s := by
  refine withIdentity_keepsCredits ps _ _ fun i _ => ?_
  split
  · simp
  · exact State.withReference_keepsCredits _ fun t hl hp => by simp [dropRoute, hl, hp]

theorem routeReadWork_keepsCredits : (routeReadWork ps s).keepsCredits s := by
  unfold routeReadWork
  split
  · simp
  · simp
  · exact withIdentity_keepsCredits ps _ _ fun i _ => by simp
  · exact withIdentity_keepsCredits ps _ _ fun i _ => by simp

theorem routeFindWork_keepsCredits : (routeFindWork ps s).keepsCredits s := by
  unfold routeFindWork; split <;> simp

/-! #### Chapter 2 -/

theorem exitCreateWork_keepsCredits : (exitCreateWork ps s).keepsCredits s := by
  unfold exitCreateWork; (repeat' split) <;> simp

theorem changeExit_keepsCredits (c : Option ExitWrite) : (changeExit c s).keepsCredits s := by
  unfold changeExit
  split
  · simp
  · split
    · simp
    · exact State.withReads_keepsCredits _ fun reads t hl hp => by simp [hl, hp]

theorem exitDeleteWork_keepsCredits : (exitDeleteWork ps s).keepsCredits s := by
  unfold exitDeleteWork; (repeat' split) <;> simp

theorem exitReadWork_keepsCredits : (exitReadWork ps s).keepsCredits s := by
  unfold exitReadWork
  split
  · simp
  · split
    · simp
    · exact State.withReads_keepsCredits _ fun reads t hl hp => by simp [hl, hp]

/-! #### Chapter 3 -/

theorem setCreateWork_keepsCredits : (setCreateWork ps s).keepsCredits s := by
  unfold setCreateWork
  split
  · simp
  · split
    · simp
    · exact State.withReads_keepsCredits _ fun reads t hl hp => by simp [hl, hp]

theorem setChangeWork_keepsCredits : (setChangeWork ps s).keepsCredits s := by
  unfold setChangeWork; (repeat' split) <;> simp
theorem setDeleteWork_keepsCredits : (setDeleteWork ps s).keepsCredits s := by
  unfold setDeleteWork; (repeat' split) <;> simp
theorem setReadWork_keepsCredits : (setReadWork ps s).keepsCredits s := by
  unfold setReadWork; (repeat' split) <;> simp

theorem memberAddWork_keepsCredits : (memberAddWork ps s).keepsCredits s := by
  unfold memberAddWork
  split
  · simp
  · split
    · simp
    · exact State.withReads_keepsCredits _ fun reads t hl hp => by simp [hl, hp]

theorem memberRemoveWork_keepsCredits : (memberRemoveWork ps s).keepsCredits s := by
  unfold memberRemoveWork; (repeat' split) <;> simp
theorem memberWeightWork_keepsCredits : (memberWeightWork ps s).keepsCredits s := by
  unfold memberWeightWork; (repeat' split) <;> simp
theorem setRefillWork_keepsCredits : (setRefillWork ps s).keepsCredits s := by
  unfold setRefillWork; (repeat' split) <;> simp
theorem mapReadWork_keepsCredits : (mapReadWork ps s).keepsCredits s := by
  unfold mapReadWork; (repeat' split) <;> simp

/-! #### Chapters 4 and 6 -/

theorem portForceWork_keepsCredits : (portForceWork ps s).keepsCredits s := by
  unfold portForceWork; split <;> simp
theorem portReadWork_keepsCredits : (portReadWork ps s).keepsCredits s := by
  unfold portReadWork; split <;> simp [Reply.keepsCredits, Progress.restarts]
theorem probeWork_keepsCredits : (probeWork ps s).keepsCredits s := by
  unfold probeWork; split <;> simp [Reply.keepsCredits, Progress.restarts]

/-! #### Chapters 7 to 9 -/

theorem jobStartWork_keepsCredits : (jobStartWork ps s).keepsCredits s := by
  unfold jobStartWork; (repeat' split) <;> simp

theorem State.cancelProgress_restarts (n : Fin 4) : (s.cancelProgress n).restarts = false := by
  unfold State.cancelProgress
  split <;> rfl

theorem jobCancelWork_keepsCredits : (jobCancelWork ps s).keepsCredits s := by
  unfold jobCancelWork
  split
  · simp
  · split
    · split
      · exact ⟨rfl, rfl, rfl⟩
      · simp [Reply.keepsCredits, State.cancelProgress_restarts]
    · simp

theorem jobReadWork_keepsCredits : (jobReadWork ps s).keepsCredits s := by
  unfold jobReadWork; (repeat' split) <;> simp
theorem collectWork_keepsCredits : (collectWork ps s).keepsCredits s := by
  unfold collectWork; split <;> simp
theorem attentionMaskWork_keepsCredits : (attentionMaskWork ps s).keepsCredits s := by
  unfold attentionMaskWork; dsimp only; split <;> simp
theorem identifyWork_keepsCredits : (identifyWork ps s).keepsCredits s := ⟨rfl, rfl, rfl⟩

theorem setParametersWork_keepsCredits : (setParametersWork ps s).keepsCredits s := by
  unfold setParametersWork; (repeat' split) <;> simp [Reply.keepsCredits, Progress.restarts]

theorem readParametersWork_keepsCredits : (readParametersWork ps s).keepsCredits s := ⟨rfl, rfl, rfl⟩
theorem readSpaceWork_keepsCredits : (readSpaceWork ps s).keepsCredits s := ⟨rfl, rfl, rfl⟩

end

/-! ### Work on the lanes (chapter 5) and RESTART -/

/-- The work leaves the part of the law that is the lanes', and a RESTART with parts made leaves every lane DISABLED. -/
def Reply.conserves (r : Reply) : Prop := r.1.lanesBalanced ∧ (r.2.restarts = true → r.1.lanesDisabled)

theorem Reply.conserves_of_keepsCredits {r : Reply} {s : State} (h : s.lanesBalanced) (hr : r.keepsCredits s) :
    r.conserves := by
  obtain ⟨hl, hp, hno⟩ := hr
  exact ⟨State.lanesBalanced_congr h hl (PortMonitor.credited_congr hp), fun ht => by rw [hno] at ht; cases ht⟩

theorem answerOk_conserves {t : State} (ws : List Word) (h : t.lanesBalanced) : (answerOk t ws).conserves :=
  ⟨h, fun ht => by cases ht⟩

section
variable {s : State} (h : s.lanesBalanced) (ps : List Word)
include h

theorem refuse_conserves (c : ResultCode) : (refuse s c).conserves := ⟨h, fun ht => by cases ht⟩

theorem laneEnableWork_conserves : (laneEnableWork ps s).conserves := by
  unfold laneEnableWork
  split
  · exact refuse_conserves h _
  · rename_i n _
    split
    · rename_i hl
      have hl : (s.lane n).link ≠ .up := by simp [beq_iff_eq.mp hl]
      exact answerOk_conserves _ (State.detect_lanesBalanced
        (State.updLane_lanesBalanced h (Lane.balanced_relink (h n) hl (by simp) rfl rfl rfl)) n)
    · exact answerOk_conserves _ h

theorem laneDisableWork_conserves : (laneDisableWork ps s).conserves := by
  have hoff : ∀ n, (s.lane n).link ≠ .up → (s.updLane n fun l => { l with link := .disabled }).lanesBalanced := fun n hl =>
    State.updLane_lanesBalanced h (Lane.balanced_relink (h n) hl (by simp) rfl rfl rfl)
  unfold laneDisableWork
  split
  · exact refuse_conserves h _
  · rename_i n _
    split
    · exact answerOk_conserves _ (State.leaveUp_lanesBalanced h n (by simp))
    · rename_i hl
      exact answerOk_conserves _ (hoff n (by simp [hl]))
    · rename_i hl
      exact answerOk_conserves _ (hoff n (by simp [hl]))
    · exact answerOk_conserves _ h

theorem laneReadWork_conserves : (laneReadWork ps s).conserves := by
  unfold laneReadWork
  split
  · exact refuse_conserves h _
  · rename_i n _
    refine answerOk_conserves _ ?_
    split
    · exact State.updLane_lanesBalanced h (h n)
    · exact h

theorem laneWeightWork_conserves : (laneWeightWork ps s).conserves := by
  unfold laneWeightWork
  dsimp only
  split
  · exact refuse_conserves h _
  · rename_i n _
    split
    · exact answerOk_conserves _ (State.updLane_lanesBalanced h (h n))
    · exact refuse_conserves h _

end

/-- RESTART's first parts leave every lane DISABLED and no report to be credited; the later ones change neither. -/
theorem restartWork_conserves (ps : List Word) (s : State) : (restartWork ps s).conserves := by
  obtain ⟨hb, hd⟩ := s.restartUnits_emptiesLanes
  rcases restartWork_cases ps s with ⟨-, he⟩ | ⟨-, -, he⟩ | ⟨-, -, he⟩ <;> rw [he]
  · exact ⟨hb, fun _ => hd⟩
  · refine ⟨State.lanesBalanced_congr hb rfl (PortMonitor.credited_congr ?_), fun _ => hd⟩
    exact PortMonitor.offer_reports _ PortClaim.report?_command
  · refine ⟨State.lanesBalanced_congr hb rfl fun n => ?_, fun _ => hd⟩
    rw [PortMonitor.credited_none rfl]
    exact (s.pmon.orphan_fours_credited n).symm

/-! ### The rows of host commands -/

section
variable {s : State} (h : s.creditsConserved)
include h

theorem runCommand_conserved (code : Nat) {body : List Word → State → Reply} (hb : ∀ ps, (body ps s).conserves) :
    (runCommand code body s).creditsConserved := by
  rcases runCommand_cases code body s with he | ⟨w, ps, p, -, -, -, -, ⟨-, he⟩ | ⟨-, -, he⟩⟩ <;> rw [he]
  · exact h
  · obtain ⟨hl, hd⟩ := hb ps
    refine (State.creditsConserved_iff _).mpr ⟨?_, fun hr => ?_⟩
    · exact State.lanesBalanced_congr hl (by simp) (PortMonitor.credited_congr (by simp))
    · exact State.lanesDisabled_congr (hd (by simpa using hr)) (by simp)
  · exact State.creditsConserved_of_fields h (by simp) (by simp) (by simp)

theorem runCommand_conserved_of_keeps (code : Nat) {body : List Word → State → Reply}
    (hb : ∀ ps, (body ps s).keepsCredits s) : (runCommand code body s).creditsConserved :=
  runCommand_conserved h code fun ps => Reply.conserves_of_keepsCredits (State.balanced_of_conserved h) (hb ps)

end

end Sys2Proof.Machine
end

section
/-! PROOFS. The law of R101 under every row and under the step. -/

namespace Sys2Proof.Machine

/-! ### Inbound messages -/

theorem State.receives_iff {s : State} {n : Fin 4} :
    s.receives n = true ↔ s.dev.phase = .running ∧ (s.lane n).link = .up := by
  simp [State.receives, State.running]

/-- A message that a lane receives from a client that holds a credit: its credit is taken, and it has not become anything
yet. -/
theorem State.balanced_spend_of_receives {s : State} (h : s.creditsConserved) {n : Fin 4} (hr : s.receives n = true)
    (hc : (s.lane n).link = .up → 0 < (s.lane n).held) :
    (s.lane n).link = .up ∧ (s.lane n).spend.balanced 31 (s.pmon.credited n) := by
  obtain ⟨-, hl⟩ := State.receives_iff.mp hr
  exact ⟨hl, Lane.balanced_spend hl (State.balanced_of_conserved h n) (hc hl)⟩

/-- A LOOKUP of a client that keeps to its credits finds room in the queue. -/
theorem State.takeLookup_conserved {s : State} (h : s.creditsConserved) {n : Fin 4} {f : Lane → Lane}
    (hl : (f (s.lane n)).link = .up) (hu : (s.lane n).link = .up) (hf : (f (s.lane n)).balanced 31 (s.pmon.credited n))
    (tag : Byte) (ask : Option Ask) : ((s.updLane n f).takeLookup n tag ask).creditsConserved := by
  obtain ⟨hroom, -⟩ := Lane.room_of_balanced hl hf
  rw [State.takeLookup, State.updLane_lane_self, if_pos hroom, State.updLane_updLane]
  exact State.updLane_conserved h (Lane.balanced_enqueue hl hf tag ask) fun hd => by simp [hu] at hd

/-- One lane in UP changes, with the reports that will be credited to it. -/
theorem State.conserved_of_up {s t : State} (h : s.creditsConserved) {n : Fin 4} (hu : (s.lane n).link = .up)
    (hcu : t.restarting = s.restarting)
    (hm : ∀ m, m ≠ n → t.lane m = s.lane m ∧ t.pmon.credited m = s.pmon.credited m)
    (hn : (t.lane n).balanced 32 (t.pmon.credited n)) : t.creditsConserved := by
  refine (State.creditsConserved_iff t).mpr
    ⟨State.lanesBalanced_of_lane (State.balanced_of_conserved h) n hm hn, fun hr => ?_⟩
  rw [hcu, State.not_restarting_of_up h hu] at hr
  cases hr

/-- A report handed to PMON: one more pending, and one more that will be credited (R99). -/
theorem State.handReport_conserved {s : State} (h : s.creditsConserved) {n : Fin 4} (hu : (s.lane n).link = .up)
    (hs : (s.lane n).spend.balanced 31 (s.pmon.credited n)) (p : Fin 64) (st : ReportedState) :
    ((s.updLane n fun l => { l.spend with reportsPending := l.spend.reportsPending + 1 }).setPmon
      { s.pmon with waiting := joinLine (.report ⟨n, p, st, true⟩) s.pmon.waiting }).creditsConserved := by
  have hc := s.pmon.credited_joinLine ⟨n, p, st, true⟩ rfl
  refine State.conserved_of_up h hu rfl (fun m hm => ⟨?_, ?_⟩) ?_
  · rw [State.setPmon_lane, State.updLane_lane_ne _ _ hm]
  · rw [State.setPmon_pmon, hc, if_neg hm]
    rfl
  · rw [State.setPmon_lane, State.updLane_lane_self, State.setPmon_pmon, hc, if_pos rfl]
    exact Lane.balanced_report hu hs

/-- The report taken next leaves the line, and its lane has its credit, if it is still to have it (R99). -/
theorem State.takeReport_conserved {s t : State} (h : s.creditsConserved) {r : PortReport} (hr : s.pmon.nextReport? = some r)
    (hl : t.lanes = s.lanes) (hp : t.pmon.reports = (s.pmon.popReport r).reports) (hcu : t.restarting = s.restarting) :
    (if r.credit then t.updLane r.lane Lane.reportTaken else t).creditsConserved := by
  have hc : ∀ n, s.pmon.credited n = t.pmon.credited n + if n = r.lane ∧ r.credit = true then 1 else 0 := fun n => by
    rw [PortMonitor.credited_of_nextReport? hr, PortMonitor.credited_congr hp]
  split
  · rename_i hcredit
    have hb : (s.lane r.lane).balanced 32 (t.pmon.credited r.lane + 1) := by
      have hn := State.balanced_of_conserved h r.lane
      rwa [hc, if_pos ⟨rfl, hcredit⟩] at hn
    refine State.conserved_of_up h (Lane.up_of_reports hb) hcu (fun m hm => ⟨?_, ?_⟩) ?_
    · rw [State.updLane_lane_ne _ _ hm, State.lane_congr hl]
    · rw [hc, if_neg fun hand => hm hand.1]
      rfl
    · rw [State.updLane_lane_self, State.lane_congr hl]
      exact Lane.balanced_reportTaken hb
  · rename_i hcredit
    refine State.creditsConserved_of_same h ⟨hl, fun n => ?_, hcu.le⟩
    rw [hc, if_neg fun hand => hcredit hand.2]
    rfl

/-! ### The rows -/

/-- The state that a row leads to meets the law. -/
def creditsKept (o : Out) : Prop := ∀ t, o = .next t → t.creditsConserved

@[simp] theorem creditsKept_next {t : State} : creditsKept (.next t) ↔ t.creditsConserved :=
  ⟨fun h => h t rfl, fun h _ ht => Host.Outcome.next.inj ht ▸ h⟩

section
variable {s : State} (h : s.creditsConserved)
include h

/-- A row that changes neither the lanes nor the reports at PMON, and begins no RESTART. -/
theorem creditsKept_of_fields {t : State} (hl : t.lanes = s.lanes) (hp : t.pmon.reports = s.pmon.reports)
    (hr : t.restarting = true → s.restarting = true) : creditsKept (.next t) :=
  creditsKept_next.mpr (State.creditsConserved_of_fields h hl hp hr)

theorem creditsKept_runCommand (code : Nat) {body : List Word → State → Reply} (hb : ∀ ps, (body ps s).conserves) :
    creditsKept (.next (runCommand code body s)) :=
  creditsKept_next.mpr (runCommand_conserved h code hb)

theorem creditsKept_runCommand_of_keeps (code : Nat) {body : List Word → State → Reply}
    (hb : ∀ ps, (body ps s).keepsCredits s) : creditsKept (.next (runCommand code body s)) :=
  creditsKept_next.mpr (runCommand_conserved_of_keeps h code hb)

/-! #### The management port, the device and its supplies -/

omit h in
/-- A complete command is handed over with nothing of it done. -/
theorem State.completeCommand_restarting (s : State) (ws : List Word) (cs : List Nat)
    (h : (s.completeCommand ws cs).restarting = true) : s.restarting = true := by
  unfold State.completeCommand at h
  split at h
  · cases h
  · exact h

theorem execWordWrite_creditsKept (w : Word) : creditsKept (execWordWrite w s) := by
  have hfirst : (s.takeFirstWord w).restarting = true → s.restarting = true := by
    unfold State.takeFirstWord
    (repeat' split)
    · exact id
    · exact State.completeCommand_restarting _ _ _
    · exact id
  have hparam : (s.takeParameter w).restarting = true → s.restarting = true := by
    unfold State.takeParameter
    dsimp only
    split
    · exact id
    · exact State.completeCommand_restarting _ _ _
  unfold execWordWrite
  split
  · exact creditsKept_next.mpr h
  · exact creditsKept_next.mpr h
  · split
    · exact creditsKept_of_fields h (by simp) (by simp) hfirst
    · exact creditsKept_of_fields h (by simp) (by simp) hparam
    all_goals exact creditsKept_next.mpr h

theorem execWordRead_creditsKept : creditsKept (execWordRead s) := by
  unfold execWordRead
  split <;> exact creditsKept_next.mpr h

theorem execAbort_creditsKept : creditsKept (execAbort s) := by
  unfold execAbort
  split
  · exact creditsKept_next.mpr h
  · exact creditsKept_next.mpr h
  · split <;> exact creditsKept_next.mpr h

theorem State.lastClaim_conserved : s.lastClaim.creditsConserved := by
  unfold State.lastClaim
  split
  · split
    · exact State.creditsConserved_of_fields h (by simp) (by simp) (by simp [Progress.restarts])
    · exact h
  · split
    · exact State.creditsConserved_of_fields h (by simp) (by simp) (by simp [Progress.restarts])
    · exact State.creditsConserved_of_fields h rfl (by simp) id
  · split
    · exact State.creditsConserved_of_fields h (by simp) (by simp) (by simp [Progress.restarts])
    · exact State.creditsConserved_of_fields h rfl (by simp) id
  · split
    · exact State.creditsConserved_of_fields h (by simp) (by simp) (by simp [Progress.restarts])
    · exact h
  · exact h

theorem execWorkPhaseEnd_creditsKept : creditsKept (execWorkPhaseEnd s) := by
  have hlast := State.lastClaim_conserved h
  unfold execWorkPhaseEnd
  dsimp only
  split
  · split
    · exact creditsKept_of_fields hlast rfl rfl fun hr => by cases hr
    · exact creditsKept_next.mpr hlast
  · exact creditsKept_next.mpr h

theorem execRestartComplete_creditsKept : creditsKept (execRestartComplete s) := by
  unfold execRestartComplete
  split
  · rw [creditsKept_next]
    split
    · exact State.creditsConserved_of_fields h rfl rfl (by simp [Progress.restarts])
    · exact h
  · exact creditsKept_next.mpr h

theorem execHardwareReset_creditsKept (ns : Nat) : creditsKept (execHardwareReset ns s) := by
  rw [execHardwareReset, creditsKept_next]
  split
  · exact State.abandonWork_conserved _
  · exact h

omit h in
theorem execSupplyInvalid_creditsKept (s : State) (rail : Rail) : creditsKept (execSupplyInvalid rail s) :=
  creditsKept_next.mpr (State.abandonWork_conserved _)

theorem State.startClearing_conserved : s.startClearing.creditsConserved := by
  unfold State.startClearing
  split <;> exact h

theorem execResetRelease_creditsKept : creditsKept (execResetRelease s) :=
  creditsKept_next.mpr (State.startClearing_conserved h)

theorem execSupplyValid_creditsKept : creditsKept (execSupplyValid s) :=
  creditsKept_next.mpr (State.startClearing_conserved h)

theorem execStartupClearingEnd_creditsKept : creditsKept (execStartupClearingEnd s) := by
  rw [execStartupClearingEnd, creditsKept_next]
  split
  · exact s.cleared_conserved
  · exact h

/-! #### Link events -/

/-- The signal on the line has no part in the law. -/
theorem State.updSignal_conserved (n : Fin 4) (f : Lane → Bool) :
    (s.updLane n fun l => { l with signal := f l }).creditsConserved :=
  State.updLane_conserved h (State.balanced_of_conserved h n) id

theorem execSignalDetected_creditsKept (n : Fin 4) : creditsKept (execSignalDetected n s) := by
  have hs := State.updSignal_conserved h n fun _ => true
  rw [execSignalDetected, creditsKept_next]
  split
  · exact State.detect_conserved hs n
  · exact hs

theorem execAlignmentComplete_creditsKept (n : Fin 4) : creditsKept (execAlignmentComplete n s) := by
  rw [execAlignmentComplete, creditsKept_next]
  split
  · rename_i hc
    have hl : (s.lane n).link = .aligning := beq_iff_eq.mp (Bool.and_eq_true_iff.mp hc).2
    exact State.updLane_conserved h
      (Lane.balanced_startNext (Lane.balanced_enterUp (State.balanced_of_conserved h n) (by simp [hl])))
      fun hd => by simp [hl] at hd
  · exact h

theorem execSignalLost_creditsKept (n : Fin 4) (cause : LossCause) : creditsKept (execSignalLost n cause s) := by
  have hs := State.updSignal_conserved h n fun l => l.signal && cause == .alignment
  have hlink : ((s.updLane n fun l => { l with signal := l.signal && cause == .alignment }).lane n).link = (s.lane n).link := by
    simp
  unfold execSignalLost
  dsimp only
  split
  · exact creditsKept_next.mpr hs
  · split
    · rename_i hl
      exact creditsKept_next.mpr (State.detect_conserved
        (State.post_conserved (State.leaveUp_conserved hs (hlink.trans hl) (by simp)) _) n)
    · rename_i hl
      rw [creditsKept_next]
      split
      · exact State.updLane_conserved hs
          (Lane.balanced_relink (State.balanced_of_conserved hs n) (by simp [hl]) (by simp) rfl rfl rfl)
          fun hd => by simp [hl] at hd
      · exact hs
    · exact creditsKept_next.mpr hs
    · exact creditsKept_next.mpr hs

/-! #### Arrivals from a client that keeps to its credits -/

section
variable (n : Fin 4) (hc : (s.lane n).link = .up → 0 < (s.lane n).held)
include hc

theorem execLookupN_creditsKept (tag : Byte) (d : Fin 16) (mark : Bool) (hash : BitVec 16) (k : BitVec 32) :
    creditsKept (execLookupN n tag d mark hash k s) := by
  rw [execLookupN, creditsKept_next]
  split
  · obtain ⟨hu, hs⟩ := State.balanced_spend_of_receives h ‹_› hc
    exact State.takeLookup_conserved h hu hu hs _ _
  · exact h

theorem execLookupW_creditsKept (tag : Byte) (d : Fin 16) (mark : Bool) (hash : BitVec 16) (k : BitVec 128) :
    creditsKept (execLookupW n tag d mark hash k s) := by
  rw [execLookupW, creditsKept_next]
  split
  · obtain ⟨hu, hs⟩ := State.balanced_spend_of_receives h ‹_› hc
    exact State.takeLookup_conserved h hu hu hs _ _
  · exact h

theorem execPort_creditsKept (p : Fin 64) (st : ReportedState) : creditsKept (execPort n p st s) := by
  unfold execPort
  dsimp only
  rw [creditsKept_next]
  split
  · exact h
  · rename_i hr
    obtain ⟨hu, hs⟩ := State.balanced_spend_of_receives h (n := n) (by simpa using hr) hc
    obtain ⟨-, hroom⟩ := Lane.room_of_balanced (l := (s.lane n).spend) hu hs
    split
    · exact absurd hroom (Nat.not_lt.mpr ‹_›)
    · split
      · have hr := s.restarting_of_portsHeld ‹_›
        rw [State.not_restarting_of_up h hu] at hr
        cases hr
      · rw [State.updLane_updLane]
        exact State.handReport_conserved h hu hs p st

theorem execCheckFailure_creditsKept (ws : List Word) : creditsKept (execCheckFailure n ws s) := by
  rw [execCheckFailure, creditsKept_next]
  split
  · obtain ⟨hu, hs⟩ := State.balanced_spend_of_receives h ‹_› hc
    refine State.post_conserved (State.updLane_conserved h ?_ fun hd => by simp [hu] at hd) _
    exact Lane.balanced_startNext (Lane.balanced_owe hu hs)
  · exact h

theorem execMalformedMessage_creditsKept (ws : List Word) : creditsKept (execMalformedMessage n ws s) := by
  rw [execMalformedMessage, creditsKept_next]
  split
  · exact h
  · rename_i hr
    obtain ⟨hu, hs⟩ := State.balanced_spend_of_receives h (n := n) (by simpa using hr) hc
    split
    · exact State.takeLookup_conserved h (f := fun l => l.spend.countMalformed) hu hu hs _ _
    · exact State.updLane_conserved h (Lane.balanced_startNext (Lane.balanced_owe hu hs)) fun hd => by simp [hu] at hd

end

/-! #### The ends of sends -/

theorem execCreditSent_creditsKept (n : Fin 4) : creditsKept (execCreditSent n s) := by
  unfold execCreditSent
  split
  · rename_i c hsend
    rw [creditsKept_next]
    split
    · obtain ⟨-, hu⟩ := State.receives_iff.mp ‹_›
      exact State.updLane_conserved h
        (Lane.balanced_startNext (Lane.balanced_creditSent hu (State.balanced_of_conserved h n) hsend))
        fun hd => by simp [hu] at hd
    · exact h
  · exact creditsKept_next.mpr h

theorem execResultSent_creditsKept (n : Fin 4) : creditsKept (execResultSent n s) := by
  unfold execResultSent
  split
  · rename_i hsend
    rw [creditsKept_next]
    split
    · obtain ⟨-, hu⟩ := State.receives_iff.mp ‹_›
      exact State.updLane_conserved h
        (Lane.balanced_startNext (Lane.balanced_resultSent hu (State.balanced_of_conserved h n) hsend _))
        fun hd => by simp [hu] at hd
    · exact h
  · exact creditsKept_next.mpr h

/-! #### The Port Monitor -/

theorem execReportTaken_creditsKept : creditsKept (execReportTaken s) := by
  unfold execReportTaken
  split
  · exact creditsKept_next.mpr h
  · rename_i r hr
    rw [creditsKept_next]
    split
    · exact State.takeReport_conserved h hr (by simp) (by simp) (State.restarting_congr (by simp))
    · exact h

theorem execHoldDownExpiry_creditsKept (p : Fin 64) : creditsKept (execHoldDownExpiry p s) := by
  unfold execHoldDownExpiry
  split
  · exact creditsKept_next.mpr h
  · rename_i t _
    have hadv := s.pmon.advance_reports t
    dsimp only
    rw [creditsKept_next]
    split
    · split
      · exact State.creditsConserved_of_fields h (by simp) (by simpa using hadv)
          (State.restarting_congr (s := s) (by simp)).le
      · exact State.creditsConserved_of_fields h rfl hadv id
    · exact h

theorem State.visitPass_conserved (v : Visit) : (s.visitPass v).creditsConserved :=
  State.creditsConserved_of_fields h (by simp) (by simp) (State.restarting_congr (s.visitPass_cu v)).le

theorem execVisitClaim_creditsKept (p : Fin 64) : creditsKept (execVisitClaim p s) := by
  unfold execVisitClaim
  split
  · rw [creditsKept_next]
    split
    · exact State.visitPass_conserved h _
    · exact h
  · split
    · exact creditsKept_next.mpr h
    · rw [creditsKept_next]
      split
      · exact State.visitPass_conserved h _
      · exact h

/-! #### The search -/

theorem execGrant_creditsKept : creditsKept (execGrant s) := by
  rw [execGrant, creditsKept_next]
  split
  · exact h
  · split
    · exact (s.setSu_conserved _).mpr h
    · split
      · exact h
      · exact State.grantLane_conserved h _ _

theorem execLookupClaim_creditsKept : creditsKept (execLookupClaim s) := by
  unfold execLookupClaim
  split
  · rw [creditsKept_next]
    split
    · exact h
    · split
      · exact State.lookupClaim_conserved ((s.setRs_conserved _).mpr h) _
      · exact State.lookupClaim_conserved h _
  · exact creditsKept_next.mpr h

theorem execResolutionClaim_creditsKept : creditsKept (execResolutionClaim s) := by
  unfold execResolutionClaim
  split
  · rw [creditsKept_next]
    split
    · exact h
    · split
      · exact State.resolution_conserved h _ _ _ _ _ _
      · exact h
  · rw [creditsKept_next]
    split
    · exact State.finishResolution_conserved h (s.pmon.withdraw_reports PortClaim.report?_read)
    · exact h

/-! #### The jobs -/

theorem State.makeStep_conserved (j : Job) (f : Filter) (a : Action) : (s.makeStep j f a).1.creditsConserved :=
  State.creditsConserved_of_fields h (by simp) (by simp) (State.restarting_congr (s.makeStep_cu j f a)).le

theorem State.finishStep_conserved (n : Fin 4) (j : Job) : (s.finishStep n j).creditsConserved :=
  State.creditsConserved_of_fields h (by simp) (by simp) (s.finishStep_restarting n j).le

theorem State.stepMade_conserved (n : Fin 4) (j : Job) (k : Option Job) : (s.stepMade n j k).creditsConserved :=
  State.creditsConserved_of_fields h (by simp) (by simp) (s.stepMade_restarting n j k).le

theorem State.droppedMade_conserved (k : Option Job) : (s.droppedMade k).creditsConserved :=
  State.creditsConserved_of_fields h (by simp) (by simp) (State.restarting_congr (s.droppedMade_cu k)).le

theorem execStepClaim_creditsKept : creditsKept (execStepClaim s) := by
  unfold execStepClaim
  split
  case h_1 =>
    split
    · exact creditsKept_next.mpr h
    · split
      · rw [creditsKept_next]
        split
        · exact State.droppedMade_conserved (State.makeStep_conserved h _ _ _) _
        · exact h
      · exact creditsKept_next.mpr h
  case h_2 =>
    split
    · split
      · rw [creditsKept_next]
        split
        · exact State.stepMade_conserved (State.makeStep_conserved h _ _ _) _ _ _
        · exact h
      · exact creditsKept_next.mpr h
    · exact creditsKept_next.mpr h

theorem execRefillClaim_creditsKept : creditsKept (execRefillClaim s) := by
  unfold execRefillClaim
  split
  case h_1 =>
    split
    · exact creditsKept_next.mpr h
    · split
      · rw [creditsKept_next]
        split <;> exact h
      · exact creditsKept_next.mpr h
  case h_2 =>
    split
    · split
      · rw [creditsKept_next]
        split
        · exact State.finishStep_conserved ((s.setPt_conserved _).mpr h) _ _
        · exact h
      · exact creditsKept_next.mpr h
    · exact creditsKept_next.mpr h

theorem execPinClaim_creditsKept (n : Fin 4) : creditsKept (execPinClaim n s) := by
  unfold execPinClaim
  split
  · split
    · rename_i t _
      rw [creditsKept_next]
      split
      · refine State.creditsConserved_of_fields h (by simp) (by simp) fun hr => ?_
        rw [State.restarting_congr (State.presentStep_cu _ _), State.settleCancel_restarting,
          State.restarting_congr (State.endSlot_cu _ _)] at hr
        exact hr
      · exact h
    · exact creditsKept_next.mpr h
  · exact creditsKept_next.mpr h

/-! #### The idle step -/

theorem State.takeRead_conserved : s.takeRead.creditsConserved := by
  rcases s.takeRead_cases with he | ⟨w, ps, p, q, rest, -, -, -, -, -, -, he⟩ <;> rw [he]
  · exact h
  · exact State.creditsConserved_of_fields h rfl (by simp) (by simp [Progress.restarts])

theorem State.tick_conserved : s.tick.creditsConserved := by
  have hstep : s.takeStep.takeVisit.creditsConserved :=
    State.creditsConserved_of_fields h (by simp) (by simp) (State.restarting_congr (s := s) (by simp)).le
  exact State.creditsConserved_of_fields (State.takeRead_conserved hstep) rfl (PortMonitor.advance_reports _ _) id

end

/-- Every row keeps the law, by the block that it is a row of; an arrival, when its client keeps to its credits. -/
theorem exec_creditsKept {s : State} (h : s.creditsConserved) (i : Instr) (hc : s.clientConforms i) :
    creditsKept (exec i s) := by
  cases i with
  | wordWrite w => exact execWordWrite_creditsKept h w
  | wordRead => exact execWordRead_creditsKept h
  | abort => exact execAbort_creditsKept h
  | workPhaseEnd => exact execWorkPhaseEnd_creditsKept h
  | domainSet => exact creditsKept_runCommand_of_keeps h _ fun ps => domainSetWork_keepsCredits ps s
  | domainRead => exact creditsKept_runCommand_of_keeps h _ fun ps => domainReadWork_keepsCredits ps s
  | routeAdd => exact creditsKept_runCommand_of_keeps h _ fun ps => routeAddWork_keepsCredits ps s
  | routeChange => exact creditsKept_runCommand_of_keeps h _ fun ps => routeChangeWork_keepsCredits ps s
  | routeDrop => exact creditsKept_runCommand_of_keeps h _ fun ps => routeDropWork_keepsCredits ps s
  | routeRead => exact creditsKept_runCommand_of_keeps h _ fun ps => routeReadWork_keepsCredits ps s
  | routeFind => exact creditsKept_runCommand_of_keeps h _ fun ps => routeFindWork_keepsCredits ps s
  | exitCreate => exact creditsKept_runCommand_of_keeps h _ fun ps => exitCreateWork_keepsCredits ps s
  | exitChange => exact creditsKept_runCommand_of_keeps h _ fun _ => changeExit_keepsCredits s _
  | exitEnable => exact creditsKept_runCommand_of_keeps h _ fun _ => changeExit_keepsCredits s _
  | exitDisable => exact creditsKept_runCommand_of_keeps h _ fun _ => changeExit_keepsCredits s _
  | exitDelete => exact creditsKept_runCommand_of_keeps h _ fun ps => exitDeleteWork_keepsCredits ps s
  | exitRead => exact creditsKept_runCommand_of_keeps h _ fun ps => exitReadWork_keepsCredits ps s
  | setCreate => exact creditsKept_runCommand_of_keeps h _ fun ps => setCreateWork_keepsCredits ps s
  | setChange => exact creditsKept_runCommand_of_keeps h _ fun ps => setChangeWork_keepsCredits ps s
  | setDelete => exact creditsKept_runCommand_of_keeps h _ fun ps => setDeleteWork_keepsCredits ps s
  | setRead => exact creditsKept_runCommand_of_keeps h _ fun ps => setReadWork_keepsCredits ps s
  | memberAdd => exact creditsKept_runCommand_of_keeps h _ fun ps => memberAddWork_keepsCredits ps s
  | memberRemove => exact creditsKept_runCommand_of_keeps h _ fun ps => memberRemoveWork_keepsCredits ps s
  | memberWeight => exact creditsKept_runCommand_of_keeps h _ fun ps => memberWeightWork_keepsCredits ps s
  | setRefill => exact creditsKept_runCommand_of_keeps h _ fun ps => setRefillWork_keepsCredits ps s
  | mapRead => exact creditsKept_runCommand_of_keeps h _ fun ps => mapReadWork_keepsCredits ps s
  | portForce => exact creditsKept_runCommand_of_keeps h _ fun ps => portForceWork_keepsCredits ps s
  | portRead => exact creditsKept_runCommand_of_keeps h _ fun ps => portReadWork_keepsCredits ps s
  | laneEnable => exact creditsKept_runCommand h _ (laneEnableWork_conserves (State.balanced_of_conserved h))
  | laneDisable => exact creditsKept_runCommand h _ (laneDisableWork_conserves (State.balanced_of_conserved h))
  | laneRead => exact creditsKept_runCommand h _ (laneReadWork_conserves (State.balanced_of_conserved h))
  | laneWeight => exact creditsKept_runCommand h _ (laneWeightWork_conserves (State.balanced_of_conserved h))
  | probe => exact creditsKept_runCommand_of_keeps h _ fun ps => probeWork_keepsCredits ps s
  | jobStart => exact creditsKept_runCommand_of_keeps h _ fun ps => jobStartWork_keepsCredits ps s
  | jobCancel => exact creditsKept_runCommand_of_keeps h _ fun ps => jobCancelWork_keepsCredits ps s
  | jobRead => exact creditsKept_runCommand_of_keeps h _ fun ps => jobReadWork_keepsCredits ps s
  | collect => exact creditsKept_runCommand_of_keeps h _ fun ps => collectWork_keepsCredits ps s
  | attentionMask => exact creditsKept_runCommand_of_keeps h _ fun ps => attentionMaskWork_keepsCredits ps s
  | identify => exact creditsKept_runCommand_of_keeps h _ fun ps => identifyWork_keepsCredits ps s
  | setParameters => exact creditsKept_runCommand_of_keeps h _ fun ps => setParametersWork_keepsCredits ps s
  | readParameters => exact creditsKept_runCommand_of_keeps h _ fun ps => readParametersWork_keepsCredits ps s
  | readSpace => exact creditsKept_runCommand_of_keeps h _ fun ps => readSpaceWork_keepsCredits ps s
  | restart => exact creditsKept_runCommand h _ fun ps => restartWork_conserves ps s
  | restartComplete => exact execRestartComplete_creditsKept h
  | signalDetected n => exact execSignalDetected_creditsKept h n
  | alignmentComplete n => exact execAlignmentComplete_creditsKept h n
  | signalLost n cause => exact execSignalLost_creditsKept h n cause
  | lookupN n tag d mark hash k => exact execLookupN_creditsKept h n (hc n rfl) tag d mark hash k
  | lookupW n tag d mark hash k => exact execLookupW_creditsKept h n (hc n rfl) tag d mark hash k
  | port n p st => exact execPort_creditsKept h n (hc n rfl) p st
  | checkFailure n ws => exact execCheckFailure_creditsKept h n (hc n rfl) ws
  | malformedMessage n ws => exact execMalformedMessage_creditsKept h n (hc n rfl) ws
  | creditSent n => exact execCreditSent_creditsKept h n
  | resultSent n => exact execResultSent_creditsKept h n
  | reportTaken => exact execReportTaken_creditsKept h
  | holdDownExpiry p => exact execHoldDownExpiry_creditsKept h p
  | visitClaim p => exact execVisitClaim_creditsKept h p
  | grant => exact execGrant_creditsKept h
  | lookupClaim => exact execLookupClaim_creditsKept h
  | resolutionClaim => exact execResolutionClaim_creditsKept h
  | stepClaim => exact execStepClaim_creditsKept h
  | refillClaim => exact execRefillClaim_creditsKept h
  | pinClaim n => exact execPinClaim_creditsKept h n
  | hardwareReset ns => exact execHardwareReset_creditsKept h ns
  | supplyInvalid rail => exact execSupplyInvalid_creditsKept s rail
  | resetRelease => exact execResetRelease_creditsKept h
  | supplyValid => exact execSupplyValid_creditsKept h
  | startupClearingEnd => exact execStartupClearingEnd_creditsKept h

/-- Settles O57: the step is an idle one, which moves no credit, or a row's, which moves credits between the five quantities
of a lane or leaves a lane that is not UP. -/
theorem creditLawKept : Obligations.CreditLawKept := by
  intro s t h hconf hstep
  unfold step at hstep
  split at hstep
  case h_1 =>
    cases hstep
    exact State.tick_conserved h
  case h_2 c rest hp => exact exec_creditsKept (s := s.setPending rest) h c (hconf c rest hp) t hstep

end Sys2Proof.Machine
end

section
/-! PROOFS. PORT messages, check failures and malformed messages (R94 to R96, R98, R99), and what arrives on a lane that is
not UP (R91). -/

namespace Sys2Proof.Machine

section
variable {s : State} {n : Fin 4}

/-- A report for which there is room is handed to PMON, the last of the claims there (R84, R99). -/
theorem execPort_room (hr : s.receives n = true) (hp : s.portsHeld = false) (hl : (s.lane n).reportsPending < 32)
    (p : Fin 64) (st : ReportedState) : execPort n p st s = .next ((s.updLane n fun l =>
      { l with held := l.held - 1, reportsPending := l.reportsPending + 1 }).setPmon
      { s.pmon with waiting := s.pmon.waiting ++ [[.report ⟨n, p, st, true⟩]] }) := by
  have hroom : ¬ Config.creditLimit ≤ (s.lane n).reportsPending := Nat.not_le.mpr hl
  simp only [execPort, hr, hp, hroom, Bool.not_true, Bool.false_eq_true, if_false, State.updLane_updLane]
  rfl

/-- A report of a lane that has 32 pending is lost, and its credit with it (R98). -/
theorem execPort_overrun (hr : s.receives n = true) (hl : 32 ≤ (s.lane n).reportsPending) (p : Fin 64)
    (st : ReportedState) : execPort n p st s = .next ((s.updLane n fun l =>
      { l with held := l.held - 1, overruns := min (l.overruns + 1) 65535 }).post (.lane n .overrun)) := by
  have hfull : Config.creditLimit ≤ (s.lane n).reportsPending := hl
  simp only [execPort, hr, hfull, Bool.not_true, Bool.false_eq_true, if_false, if_true, State.updLane_updLane]
  rfl

theorem execCheckFailure_received (hr : s.receives n = true) (ws : List Word) :
    execCheckFailure n ws s = .next ((s.updLane n fun l =>
      ({ l with held := l.held - 1, checkErrors := min (l.checkErrors + 1) 65535, owed := min (l.owed + 1) 32 } :
        Lane).startNext).post (.lane n .check)) := by
  simp only [execCheckFailure, hr, if_true]
  rfl

theorem execMalformedMessage_discarded (hr : s.receives n = true) {ws : List Word} (hk : messageKind ws ≠ 1) :
    execMalformedMessage n ws s = .next (s.updLane n fun l =>
      ({ l with held := l.held - 1, malformed := min (l.malformed + 1) 65535, owed := min (l.owed + 1) 32 } :
        Lane).startNext) := by
  simp only [execMalformedMessage, hr, hk, Bool.not_true, Bool.false_eq_true, if_false]
  rfl

/-- Where nothing is received an arrival is no message (R91, R185). -/
theorem exec_arrival_of_not_receives {c : Instr} (hc : arrivalLane c = some n) (hr : s.receives n = false) :
    exec c s = .next s := by
  cases c <;> cases hc
  case lookupN | lookupW | checkFailure => exact congrArg _ (if_neg (by simp [hr]))
  case port | malformedMessage => exact congrArg _ (if_pos (by simp [hr]))

end

/-- Settles O38: what a lane receives is counted and handed on as its kind has it, and a lane receives only in UP while the
blocks run. -/
theorem reportsAndBadMessages : Obligations.ReportsAndBadMessages := by
  refine ⟨fun s n p st hrun hheld hup => ?_, fun c s n hc hoff => ?_, fun s n ws hrun hup => ?_⟩
  · have hr := State.receives_iff.mpr ⟨hrun, hup⟩
    exact ⟨fun hl => execPort_room hr hheld hl p st, fun hl => execPort_overrun hr hl p st⟩
  · refine exec_arrival_of_not_receives hc (Bool.eq_false_iff.mpr fun hr => ?_)
    obtain ⟨hrun, hup⟩ := State.receives_iff.mp hr
    exact hoff.elim (absurd hrun) (absurd hup)
  · have hr := State.receives_iff.mpr ⟨hrun, hup⟩
    exact ⟨execCheckFailure_received hr ws, execMalformedMessage_discarded hr⟩

end Sys2Proof.Machine
end

section
/-! PROOFS. PROBE (R125) and the arbiter's grant (R105, R106, R114, R115). -/

namespace Sys2Proof.Machine

/-! ### PROBE -/

theorem exec_probe : ∀ s : State, exec .probe s = .next (runCommand 0x60 probeWork s) := by
  intros; rfl

theorem probeWork_presented {ps : List Word} {a : Ask} (s : State) (ha : probeFields ps = some a) :
    probeWork ps s = (s.setSu { s.su with probe := some a }, .probing) := by
  simp [probeWork, ha]

/-! ### The choice (R106) -/

theorem State.eligible_iff {s : State} {n : Fin 4} :
    s.eligible n = true ↔ (s.lane n).link = .up ∧ ∃ e ∈ (s.lane n).queue, e.status = .waiting := by
  simp [State.eligible, Lane.hasWaiting]

/-- The lane at each place of the cyclic order. -/
theorem cyclicAfter_getElem (c : Fin 4) {k : Nat} (hk : k < (cyclicAfter c).length) :
    (cyclicAfter c)[k].val = (c.val + 1 + k) % 4 := by
  have hall : ∀ c k : Fin 4, ((cyclicAfter c)[k.val]'k.isLt).val = (c.val + 1 + k.val) % 4 := by decide
  exact hall c ⟨k, hk⟩

/-- The first eligible lane of the cyclic order is the one at place `k` when it is eligible and none before it is. -/
theorem State.find?_cyclicAfter {s : State} {c n : Fin 4} {k : Nat} (hk : k < 4) (hn : n.val = (c.val + 1 + k) % 4)
    (he : s.eligible n = true) (hbefore : ∀ (j : Nat) (m : Fin 4), j < k → m.val = (c.val + 1 + j) % 4 → s.eligible m = false) :
    (cyclicAfter c).find? s.eligible = some n := by
  have hlen : k < (cyclicAfter c).length := hk
  refine List.find?_eq_some_iff_getElem.mpr ⟨he, k, hlen, Fin.ext ?_, fun j hj => ?_⟩
  · rw [cyclicAfter_getElem, hn]
  · simp [hbefore j _ hj (cyclicAfter_getElem c (hj.trans hlen))]

section
variable {s : State} {n : Fin 4}

theorem State.chooseLane_current (he : s.eligible s.su.current = true) (ha : 0 < s.su.allowance) :
    s.chooseLane = some (s.su.current, s.su.allowance - 1) := by
  simp [State.chooseLane, he, ha]

theorem State.chooseLane_next (hc : ¬ (s.eligible s.su.current = true ∧ 0 < s.su.allowance))
    (hn : (cyclicAfter s.su.current).find? s.eligible = some n) : s.chooseLane = some (n, (s.lane n).weight - 1) := by
  have hc : (s.eligible s.su.current && decide (0 < s.su.allowance)) = false := by simpa using hc
  simp [State.chooseLane, hc, hn]

theorem State.chooseLane_none (h : ∀ n, s.eligible n = false) : s.chooseLane = none := by
  simp [State.chooseLane, h]

/-! ### The grant of a lane's oldest WAITING entry (R105, R114, R115) -/

section
variable {before after : List Entry} {e : Entry} (hw : e.status = .waiting) (hb : ∀ x ∈ before, x.status ≠ .waiting)
include hw hb

theorem grantOldest_append : grantOldest (before ++ e :: after) = before ++ { e with status := .granted } :: after := by
  induction before with
  | nil => simp [grantOldest, hw]
  | cons x xs ih =>
    have hx : x.status ≠ .waiting := hb x List.mem_cons_self
    have hxs := ih fun y hy => hb y (List.mem_cons_of_mem x hy)
    simp [grantOldest, hx, hxs]

theorem find?_waiting_append : (before ++ e :: after).find? (·.status == .waiting) = some e := by
  rw [List.find?_append, List.find?_eq_none.mpr (by simpa using hb)]
  simp [hw]

end

/-- The GRANTED entry, and no other, becomes DONE. -/
theorem Lane.finish_queue_append {before after : List Entry} {e : Entry} (r : Result) (l : Lane) (hg : e.status = .granted)
    (ho : ∀ x ∈ before ++ after, x.status ≠ .granted) :
    Lane.finish r { l with queue := before ++ e :: after }
      = { l with queue := before ++ { e with status := .done r } :: after } := by
  have hkeep : ∀ q : List Entry, (∀ x ∈ q, x.status ≠ .granted) →
      (q.map fun x => if x.status == .granted then { x with status := .done r } else x) = q := fun q hq =>
    (List.map_congr_left fun x hx => if_neg (by simpa using hq x hx)).trans (List.map_id q)
  have hb := hkeep before fun x hx => ho x (List.mem_append_left _ hx)
  have ha := hkeep after fun x hx => ho x (List.mem_append_right _ hx)
  simp only [Lane.finish, List.map_append, List.map_cons, hb, ha, hg, beq_self_eq_true, if_true]

theorem State.updLane_setSu (s : State) (x : SearchUnit) (n : Fin 4) (f : Lane → Lane) :
    (s.setSu x).updLane n f = (s.updLane n f).setSu x := rfl

theorem State.handBack_lane (s : State) (n : Fin 4) (bucket : Nat) (r : Result) : s.handBack (.lane n) bucket r =
    (s.updLane n fun l => (l.finish r).startNext).setSu { s.su with lookup := none } := rfl

section
variable {before after : List Entry} {e : Entry} (hq : (s.lane n).queue = before ++ e :: after)
  (hw : e.status = .waiting) (hb : ∀ x ∈ before, x.status ≠ .waiting) (allowance : Nat)
include hq hw hb

theorem State.updLane_grantOldest : (s.updLane n fun l => { l with queue := grantOldest l.queue })
    = s.updLane n fun l => { l with queue := before ++ { e with status := .granted } :: after } := by
  simp only [State.updLane, hq, grantOldest_append hw hb]

theorem State.grantLane_asked {a : Ask} (ha : e.ask = some a) : s.grantLane n allowance =
    (s.updLane n fun l => { l with queue := before ++ { e with status := .granted } :: after }).setSu
      { s.su with current := n, allowance := allowance, lookup := some ⟨.lane n, some e.tag, a, .matching⟩ } := by
  have hf := hq ▸ find?_waiting_append (after := after) hw hb
  simp only [State.grantLane, hf, ha, State.updLane_grantOldest hq hw hb]
  rfl

theorem State.grantLane_malformed (ho : ∀ x ∈ before ++ after, x.status ≠ .granted) (ha : e.ask = none) :
    s.grantLane n allowance = (s.updLane n fun l =>
      ({ l with queue := before ++ { e with status := .done ⟨.discard, .badReq, false, none, none⟩ } :: after } :
        Lane).startNext).setSu { s.su with current := n, allowance := allowance, lookup := none } := by
  have hf := hq ▸ find?_waiting_append (after := after) hw hb
  obtain ⟨tag, ask, status⟩ := e
  obtain rfl : ask = none := ha
  have hfin := fun l => Lane.finish_queue_append (before := before) (after := after) (e := ⟨tag, none, .granted⟩)
    (.unmatched .discard .badReq) l rfl ho
  simp only [State.grantLane, hf, State.updLane_grantOldest hq hw hb, State.handBack_lane, State.updLane_setSu,
    State.updLane_updLane, hfin]
  rfl

end

/-! ### GRANT -/

section
variable (hr : s.dev.phase = .running) (hs : s.restarting = false) (hl : s.su.lookup = none)
include hr hs hl

theorem exec_grant_probe {a : Ask} (hp : s.su.probe = some a) : exec .grant s =
    .next (s.setSu { s.su with lookup := some ⟨.probe, none, a, .matching⟩, probe := none }) := by
  show execGrant s = _
  simp [execGrant, State.working, State.running, hr, hs, hl, hp]

theorem exec_grant_none (hp : s.su.probe = none) (hc : s.chooseLane = none) : exec .grant s = .next s := by
  show execGrant s = _
  simp [execGrant, State.working, State.running, hr, hs, hl, hp, hc]

theorem exec_grant_lane (hp : s.su.probe = none) {allowance : Nat} (hc : s.chooseLane = some (n, allowance)) :
    exec .grant s = .next (s.grantLane n allowance) := by
  show execGrant s = _
  simp [execGrant, State.working, State.running, hr, hs, hl, hp, hc]

end

end

/-- Settles O40: the grant is a PROBE's, or the oldest WAITING entry's of the lane that the choice of R106 comes to. -/
theorem grantChooses : Obligations.GrantChooses := by
  refine ⟨fun s ps a hw ha => ?_, fun s hr hs hl => ?_⟩
  · rw [exec_probe, runCommand_eq hw (probeWork_presented s ha) rfl]
  intro eligible
  refine ⟨fun a hp => exec_grant_probe hr hs hl hp, fun hp hno => ?_, ?_⟩
  · exact exec_grant_none hr hs hl hp
      (State.chooseLane_none fun n => Bool.eq_false_iff.mpr fun he => hno n (State.eligible_iff.mp he))
  · intro hp n allowance before e after hchosen hup hq hwait hbefore hothers
    have he : s.eligible n = true := State.eligible_iff.mpr ⟨hup, e, by simp [hq], hwait⟩
    have hchoice : s.chooseLane = some (n, allowance) := by
      rcases hchosen with ⟨rfl, ha, rfl⟩ | ⟨hc, rfl, k, hk, hn, hfirst⟩
      · exact State.chooseLane_current he ha
      · refine State.chooseLane_next (fun ⟨hcur, ha⟩ => hc ⟨State.eligible_iff.mp hcur, ha⟩)
          (State.find?_cyclicAfter hk hn he fun j m hj hm => Bool.eq_false_iff.mpr fun hem => ?_)
        exact hfirst j m hj hm (State.eligible_iff.mp hem)
    rw [exec_grant_lane hr hs hl hp hchoice]
    exact ⟨fun a ha => congrArg _ (State.grantLane_asked hq hwait hbefore allowance ha),
      fun ha => congrArg _ (State.grantLane_malformed hq hwait hbefore allowance hothers ha)⟩

end Sys2Proof.Machine
end

section
/-! PROOFS. Postings (R152, R153, R155), COLLECT (R158, R159, R199) and ATTENTION MASK (R156). -/

namespace Sys2Proof.Machine

/-! ### What a posting makes of a record (R152) -/

theorem CauseSet.join_eq (cs : CauseSet) (c : Cause) :
    cs.join c = ⟨cs.overrun || c == .overrun, cs.check || c == .check, cs.linkLost || c == .linkLost⟩ := by
  cases c <;> simp [CauseSet.join]

section
variable {p : Posting} {r : Record}

theorem Posting.updates_of_source_ne (h : r.source ≠ p.record.source) : p.updates r = false :=
  Bool.eq_false_iff.mpr fun hu => h ((p.updates_iff r).mp hu).1

/-- A list in which no record has the posting's source has none to update. -/
theorem Posting.map_update_of_source_ne {rs : List Record} (h : ∀ r ∈ rs, r.source ≠ p.record.source) :
    (rs.map fun r => if p.updates r then p.update r else r) = rs :=
  (List.map_congr_left fun r hr => by simp [Posting.updates_of_source_ne (h r hr)]).trans (List.map_id rs)

end

/-! ### The three outcomes of a posting (R152, R155) -/

section
variable {au : AttentionUnit} {p : Posting}

theorem AttentionUnit.take_masked (hm : au.masks p = true) : au.take p = au := if_pos hm

theorem AttentionUnit.take_new (hm : au.masks p = false) (hnew : ∀ r ∈ au.list, r.source ≠ p.record.source) :
    au.take p = { au with list := au.list ++ [p.record] } := by
  have hnone : au.list.any p.updates = false :=
    List.any_eq_false.mpr fun r hr => by simp [Posting.updates_of_source_ne (hnew r hr)]
  simp [AttentionUnit.take, hm, hnone]

theorem AttentionUnit.take_held {before after : List Record} {r : Record} (hm : au.masks p = false)
    (hlist : au.list = before ++ r :: after) (hr : p.updates r = true)
    (hothers : ∀ x ∈ before ++ after, x.source ≠ p.record.source) :
    au.take p = { au with list := before ++ p.update r :: after } := by
  have hb := Posting.map_update_of_source_ne fun x hx => hothers x (List.mem_append_left _ hx)
  have ha := Posting.map_update_of_source_ne fun x hx => hothers x (List.mem_append_right _ hx)
  have hany : au.list.any p.updates = true := List.any_eq_true.mpr ⟨r, by simp [hlist], hr⟩
  have hmap : (au.list.map fun r => if p.updates r then p.update r else r) = before ++ p.update r :: after := by
    rw [hlist, List.map_append, List.map_cons, hb, ha, if_pos hr]
  simp [AttentionUnit.take, hm, hany, hmap]

end

/-- Settles O48: a posting is masked, is of a new source, or finds its source's one record; the last two with the record
that R152's table states for each kind. -/
theorem postingsAreTaken : Obligations.PostingsAreTaken := by
  refine ⟨fun au => ⟨fun _ _ => rfl, fun _ _ => rfl, fun _ => rfl, fun _ _ _ _ _ _ => rfl⟩, fun au p =>
    ⟨AttentionUnit.take_masked, fun hm hnew => ?_, fun hm before r after hlist hothers r' hkind => ?_⟩⟩
  · rw [AttentionUnit.take_new hm hnew]
    cases p with
    | port | space | job => rfl
    | lane n cause => cases cause <;> rfl
  · have hupdate : p.updates r = true ∧ p.update r = r' := by
      rcases hkind with ⟨q, live, old, c, rfl, rfl, rfl⟩ | ⟨n, cause, cs, c, rfl, rfl, rfl⟩ | ⟨u, old, rfl, rfl, rfl⟩
      · exact ⟨beq_self_eq_true q, rfl⟩
      · exact ⟨beq_self_eq_true n, by rw [← CauseSet.join_eq]; rfl⟩
      · exact ⟨rfl, rfl⟩
    rw [AttentionUnit.take_held hm hlist hupdate.1 hothers, hupdate.2]

/-! ### COLLECT (R158, R159) -/

theorem exec_collect : ∀ s : State, exec .collect s = .next (runCommand 0x80 collectWork s) := by
  intros; rfl

theorem CauseSet.code_eq (cs : CauseSet) : cs.code =
    (if cs.overrun then 1 else 0) + (if cs.check then 2 else 0) + (if cs.linkLost then 4 else 0) := by
  obtain ⟨o, c, l⟩ := cs
  cases o <;> cases c <;> cases l <;> rfl

section
variable {s : State} {ps : List Word}

theorem collectWork_nil (hl : s.au.list = []) : collectWork ps s = refuse s .empty := by
  simp [collectWork, hl]

theorem collectWork_cons {r : Record} {rest : List Record} (hl : s.au.list = r :: rest) :
    collectWork ps s = answerOk ((s.setAu { s.au with list := rest }).freeSlot r) (r.words rest.length) := by
  simp [collectWork, hl]

/-- The head record is removed, with its slot when it is a JOB record, and answered. -/
theorem exec_collect_cons (hw : s.works 0x80 ps) {r : Record} {rest : List Record} (hl : s.au.list = r :: rest) :
    exec .collect s
      = .next (((s.setAu { s.au with list := rest }).freeSlot r).answered .ok (r.words rest.length)) := by
  rw [exec_collect, runCommand_answered hw (collectWork_cons hl) (State.freeSlot_cu _ _)]

end

/-! ### ATTENTION MASK (R156) -/

theorem exec_attentionMask : ∀ s : State, exec .attentionMask s = .next (runCommand 0x81 attentionMaskWork s) := by
  intros; rfl

/-- A selection code keeps the setting, sets it or clears it (R198). -/
theorem exists_maskSelectionOf {code : Nat} {old new : Bool}
    (h : (code = 0 ∧ new = old) ∨ (code = 1 ∧ new = true) ∨ (code = 2 ∧ new = false)) :
    ∃ x, maskSelectionOf code = some x ∧ x.getD old = new := by
  rcases h with ⟨rfl, rfl⟩ | ⟨rfl, rfl⟩ | ⟨rfl, rfl⟩
  · exact ⟨none, rfl, rfl⟩
  · exact ⟨some true, rfl, rfl⟩
  · exact ⟨some false, rfl, rfl⟩

theorem AttentionUnit.maskWord_eq (rs : List Record) (p l sp : Bool) : AttentionUnit.maskWord ⟨rs, p, l, sp⟩ =
    BitVec.ofNat 32 ((if p then 1 else 0) + (if l then 2 else 0) + (if sp then 4 else 0)) := by
  cases p <;> cases l <;> cases sp <;> rfl

theorem attentionMaskWork_selected {ps : List Word} (s : State) {xp xl xs : Option Bool}
    (hp : maskSelectionOf (bits (param ps 0) 31 24) = some xp)
    (hl : maskSelectionOf (bits (param ps 0) 23 16) = some xl)
    (hs : maskSelectionOf (bits (param ps 0) 15 8) = some xs) :
    let au : AttentionUnit :=
      ⟨s.au.list, xp.getD s.au.maskPort, xl.getD s.au.maskLane, xs.getD s.au.maskSpace⟩
    attentionMaskWork ps s = answerOk (s.setAu au) [au.maskWord] := by
  simp [attentionMaskWork, hp, hl, hs]

/-- Settles O49: COLLECT's work is fixed by the head of the list, ATTENTION MASK's by its three selections. -/
theorem collectAndMask : Obligations.CollectAndMask := by
  refine ⟨fun s ps hw => ⟨fun hl => ?_, fun r rest hl => ?_⟩, fun s ps p l sp hw hsel => ?_⟩
  · rw [exec_collect, runCommand_refused hw (collectWork_nil hl)]
  · have hcollect := exec_collect_cons hw hl
    refine ⟨?port, ?job, ?lane, ?space⟩
    case port => rintro p live c rfl; exact hcollect
    case job => rintro n k o v m a rfl; exact hcollect
    case lane =>
      rintro n cs c rfl
      rw [← CauseSet.code_eq]
      exact hcollect
    case space => rintro u rfl; exact hcollect
  · obtain ⟨xp, hxp, rfl⟩ := exists_maskSelectionOf (hsel (bits (param ps 0) 31 24) s.au.maskPort p (by simp))
    obtain ⟨xl, hxl, rfl⟩ := exists_maskSelectionOf (hsel (bits (param ps 0) 23 16) s.au.maskLane l (by simp))
    obtain ⟨xs, hxs, rfl⟩ := exists_maskSelectionOf (hsel (bits (param ps 0) 15 8) s.au.maskSpace sp (by simp))
    rw [exec_attentionMask, runCommand_answered hw (attentionMaskWork_selected s hxp hxl hxs) rfl,
      AttentionUnit.maskWord_eq]

end Sys2Proof.Machine
end

section
/-! PROOFS. IDENTIFY (R178) and READ SPACE (R181). -/

namespace Sys2Proof.Machine

theorem exec_identify : ∀ s : State, exec .identify s = .next (runCommand 0x90 identifyWork s) := by
  intros; rfl

theorem exec_readSpace : ∀ s : State, exec .readSpace s = .next (runCommand 0x94 readSpaceWork s) := by
  intros; rfl

/-- The words of R198 written out: the model's counts are packed in fields of 8 and 16 bits. -/
theorem identifyWork_eq (ps : List Word) (s : State) : identifyWork ps s = answerOk s
    [0x0D570240#32, 0x00000001#32, 0x00010000#32, 0x20001000#32, 0x10400404#32, 0x00000049#32] := rfl

/-- The arm state stands alone in the highest byte of its word. -/
theorem pack8_bitCode (b : Bool) : pack8 (bitCode b) 0 0 0 = if b then 0x01000000#32 else 0#32 := by
  cases b <;> rfl

theorem readSpaceWork_eq (ps : List Word) (s : State) : readSpaceWork ps s = answerOk s
    [BitVec.ofNat 32 s.rs.units, BitVec.ofNat 32 s.rs.high, BitVec.ofNat 32 s.rs.low,
      if s.rs.armed then 0x01000000#32 else 0#32] := by
  rw [readSpaceWork, pack8_bitCode]
  simp only [wordOf]

/-- Settles O13: each command's work answers its words and leaves the state as it is, and the step leaves that answer. -/
theorem identifyAndReadSpace : Obligations.IdentifyAndReadSpace := by
  refine ⟨fun s ps hw => ?identify, fun s ps hw => ?readSpace⟩
  case identify => rw [exec_identify, runCommand_answered hw (identifyWork_eq ps s) rfl]
  case readSpace => rw [exec_readSpace, runCommand_answered hw (readSpaceWork_eq ps s) rfl]

end Sys2Proof.Machine
end

section
/-! PROOFS. What each row leaves alone. The state in its parts, the parts that each command's work and each row can touch,
and that every row answers a next state. -/

namespace Sys2Proof.Machine

-- The proofs are elaborated one after another: each thread counts against the memory in which the text is checked.
set_option Elab.async false

/-! ### The parts of the state -/

/-- The parts that a frame speaks of: the blocks, and of three of them the records alone: the route table, the exits and path
sets, and the port records. -/
inductive Part where
  | mp | cu | rs | routes | pt | records | pmon | ports | lanes | su | je | au | dev | pending
  deriving DecidableEq

/-- The part is the same in both states. -/
def Part.same (s t : State) : Part → Prop
  | .mp => t.mp = s.mp
  | .cu => t.cu = s.cu
  | .rs => t.rs = s.rs
  | .routes => t.rs.routes = s.rs.routes
  | .pt => t.pt = s.pt
  | .records => t.pt.exits = s.pt.exits ∧ t.pt.sets = s.pt.sets
  | .pmon => t.pmon = s.pmon
  | .ports => t.pmon.ports = s.pmon.ports
  | .lanes => t.lanes = s.lanes
  | .su => t.su = s.su
  | .je => t.je = s.je
  | .au => t.au = s.au
  | .dev => t.dev = s.dev
  | .pending => t.pending = s.pending

/-- The second state has every part of the first but those listed. -/
def State.sameBut (touched : List Part) (s t : State) : Prop := ∀ p, p ∉ touched → p.same s t

theorem State.sameBut_iff {l : List Part} {s t : State} : s.sameBut l t ↔
    (.mp ∉ l → t.mp = s.mp) ∧ (.cu ∉ l → t.cu = s.cu) ∧ (.rs ∉ l → t.rs = s.rs) ∧
    (.routes ∉ l → t.rs.routes = s.rs.routes) ∧ (.pt ∉ l → t.pt = s.pt) ∧
    (.records ∉ l → t.pt.exits = s.pt.exits ∧ t.pt.sets = s.pt.sets) ∧ (.pmon ∉ l → t.pmon = s.pmon) ∧
    (.ports ∉ l → t.pmon.ports = s.pmon.ports) ∧ (.lanes ∉ l → t.lanes = s.lanes) ∧ (.su ∉ l → t.su = s.su) ∧
    (.je ∉ l → t.je = s.je) ∧ (.au ∉ l → t.au = s.au) ∧ (.dev ∉ l → t.dev = s.dev) ∧
    (.pending ∉ l → t.pending = s.pending) := by
  constructor
  · intro h
    exact ⟨h .mp, h .cu, h .rs, h .routes, h .pt, h .records, h .pmon, h .ports, h .lanes, h .su, h .je, h .au, h .dev,
      h .pending⟩
  · rintro ⟨h1, h2, h3, h4, h5, h6, h7, h8, h9, h10, h11, h12, h13, h14⟩ p
    cases p
    case mp => exact h1
    case cu => exact h2
    case rs => exact h3
    case routes => exact h4
    case pt => exact h5
    case records => exact h6
    case pmon => exact h7
    case ports => exact h8
    case lanes => exact h9
    case su => exact h10
    case je => exact h11
    case au => exact h12
    case dev => exact h13
    case pending => exact h14

theorem State.sameBut_refl (l : List Part) (s : State) : s.sameBut l s := by simp [State.sameBut_iff]

theorem Part.same_trans {s t u : State} {p : Part} (h : p.same s t) (k : p.same t u) : p.same s u := by
  cases p
  case records => exact ⟨k.1.trans h.1, k.2.trans h.2⟩
  all_goals exact Eq.trans k h

theorem State.sameBut_trans {l : List Part} {s t u : State} (h : s.sameBut l t) (k : t.sameBut l u) : s.sameBut l u :=
  fun p hp => Part.same_trans (h p hp) (k p hp)

theorem State.sameBut_mono {l l' : List Part} {s t : State} (h : s.sameBut l t) (hl : l ⊆ l') : s.sameBut l' t :=
  fun p hp => h p fun hm => hp (hl hm)

/-! ### The records under the operations that only move claims -/

section
variable (s : State)

@[simp] theorem State.dropClaims_exits : s.dropClaims.pt.exits = s.pt.exits := by simp [State.dropClaims]
@[simp] theorem State.dropClaims_sets : s.dropClaims.pt.sets = s.pt.sets := by simp [State.dropClaims]
@[simp] theorem State.dropClaims_ports : s.dropClaims.pmon.ports = s.pmon.ports := rfl

@[simp] theorem State.progressTo_exits (ws : List Word) (p : Progress) : (s.progressTo ws p).pt.exits = s.pt.exits := by
  unfold State.progressTo; split <;> simp
@[simp] theorem State.progressTo_sets (ws : List Word) (p : Progress) : (s.progressTo ws p).pt.sets = s.pt.sets := by
  unfold State.progressTo; split <;> simp
@[simp] theorem State.progressTo_ports (ws : List Word) (p : Progress) : (s.progressTo ws p).pmon.ports = s.pmon.ports := by
  unfold State.progressTo; split <;> simp

@[simp] theorem State.await_exits (w : Word) (ps : List Word) : (s.await w ps).pt.exits = s.pt.exits := by
  simp only [State.await, State.setPmon_pt, State.setPt_pt]; split <;> rfl
@[simp] theorem State.await_sets (w : Word) (ps : List Word) : (s.await w ps).pt.sets = s.pt.sets := by
  simp only [State.await, State.setPmon_pt, State.setPt_pt]; split <;> rfl
@[simp] theorem State.await_ports (w : Word) (ps : List Word) : (s.await w ps).pmon.ports = s.pmon.ports := by
  simp only [State.await, State.setPmon_pmon]; split <;> rfl

@[simp] theorem PathTable.restartPass_exits (pt : PathTable) (p : Fin 64) : (pt.restartPass p).exits = pt.exits := by
  rcases pt.restartPass_cases p with ⟨_, -, -, h⟩ | ⟨-, h⟩ <;> simp [h]
@[simp] theorem PathTable.restartPass_sets (pt : PathTable) (p : Fin 64) : (pt.restartPass p).sets = pt.sets := by
  rcases pt.restartPass_cases p with ⟨_, -, -, h⟩ | ⟨-, h⟩ <;> simp [h]

@[simp] theorem State.portClaim_exits (p : Fin 64) (f : Port → Port) : (s.portClaim p f).pt.exits = s.pt.exits := by
  unfold State.portClaim; dsimp only; split <;> simp
@[simp] theorem State.portClaim_sets (p : Fin 64) (f : Port → Port) : (s.portClaim p f).pt.sets = s.pt.sets := by
  unfold State.portClaim; dsimp only; split <;> simp

@[simp] theorem State.resolution_exits (c : Source) (k : Ask) (len : Nat) (t : Target) (g : BitVec 16) (d : DropVerdict) :
    (s.resolution c k len t g d).pt.exits = s.pt.exits := by
  rcases s.resolution_cases c k len t g d with ⟨-, h⟩ | ⟨-, h⟩ <;> simp [h, State.finishResolution]
@[simp] theorem State.resolution_sets (c : Source) (k : Ask) (len : Nat) (t : Target) (g : BitVec 16) (d : DropVerdict) :
    (s.resolution c k len t g d).pt.sets = s.pt.sets := by
  rcases s.resolution_cases c k len t g d with ⟨-, h⟩ | ⟨-, h⟩ <;> simp [h, State.finishResolution]
@[simp] theorem State.resolution_ports (c : Source) (k : Ask) (len : Nat) (t : Target) (g : BitVec 16) (d : DropVerdict) :
    (s.resolution c k len t g d).pmon.ports = s.pmon.ports := by
  rcases s.resolution_cases c k len t g d with ⟨-, h⟩ | ⟨-, h⟩ <;> simp [h, State.finishResolution]

@[simp] theorem State.presentStep_exits (b : Bool) : (s.presentStep b).pt.exits = s.pt.exits := by
  rcases s.presentStep_cases b with h | ⟨n, j, -, -, -, -, -, ⟨f, a, -, h⟩ | ⟨x, y, -, h⟩⟩ <;> simp [h]
@[simp] theorem State.presentStep_sets (b : Bool) : (s.presentStep b).pt.sets = s.pt.sets := by
  rcases s.presentStep_cases b with h | ⟨n, j, -, -, -, -, -, ⟨f, a, -, h⟩ | ⟨x, y, -, h⟩⟩ <;> simp [h]
@[simp] theorem State.beginEnding_exits (n : Fin 4) : (s.beginEnding n).pt.exits = s.pt.exits := by
  rcases s.beginEnding_cases n with ⟨j, o, t, -, -, -, -, h⟩ | ⟨j, o, -, -, -, -, h⟩ | h <;> simp [h]
@[simp] theorem State.beginEnding_sets (n : Fin 4) : (s.beginEnding n).pt.sets = s.pt.sets := by
  rcases s.beginEnding_cases n with ⟨j, o, t, -, -, -, -, h⟩ | ⟨j, o, -, -, -, -, h⟩ | h <;> simp [h]
@[simp] theorem State.finishStep_exits (n : Fin 4) (j : Job) : (s.finishStep n j).pt.exits = s.pt.exits := by
  simp [State.finishStep]
@[simp] theorem State.finishStep_sets (n : Fin 4) (j : Job) : (s.finishStep n j).pt.sets = s.pt.sets := by
  simp [State.finishStep]
@[simp] theorem State.withdrawStep_exits (n : Fin 4) : (s.withdrawStep n).pt.exits = s.pt.exits := by
  unfold State.withdrawStep; (repeat' split) <;> simp
@[simp] theorem State.withdrawStep_sets (n : Fin 4) : (s.withdrawStep n).pt.sets = s.pt.sets := by
  unfold State.withdrawStep; (repeat' split) <;> simp
@[simp] theorem State.withdrawStep_routes (n : Fin 4) : (s.withdrawStep n).rs.routes = s.rs.routes := by
  unfold State.withdrawStep; (repeat' split) <;> simp

@[simp] theorem State.evalWatermark_routes : s.evalWatermark.rs.routes = s.rs.routes := by
  unfold State.evalWatermark; (repeat' split) <;> simp
@[simp] theorem State.writeWatermarks_routes (x : Option (Nat × Nat)) : (s.writeWatermarks x).rs.routes = s.rs.routes := by
  unfold State.writeWatermarks; split <;> simp
@[simp] theorem State.writeHoldDown_ports (x : Option Nat) : (s.writeHoldDown x).pmon.ports = s.pmon.ports := by
  unfold State.writeHoldDown; split <;> simp

@[simp] theorem State.lastClaim_exits : s.lastClaim.pt.exits = s.pt.exits := by
  unfold State.lastClaim; (repeat' split) <;> simp
@[simp] theorem State.lastClaim_sets : s.lastClaim.pt.sets = s.pt.sets := by
  unfold State.lastClaim; (repeat' split) <;> simp
@[simp] theorem State.lastClaim_ports : s.lastClaim.pmon.ports = s.pmon.ports := by
  unfold State.lastClaim; (repeat' split) <;> simp
@[simp] theorem State.lastClaim_routes : s.lastClaim.rs.routes = s.rs.routes := by
  unfold State.lastClaim; (repeat' split) <;> simp

@[simp] theorem PortMonitor.orphan_ports (m : PortMonitor) (n : Fin 4) : (m.orphan n).ports = m.ports := rfl
@[simp] theorem State.leaveUp_ports (n : Fin 4) (x : Link) : (s.leaveUp n x).pmon.ports = s.pmon.ports := rfl

end

/-! ### The work of the host commands -/

section
variable {l : List Part} {s : State}

theorem State.withReference_sameBut (hpt : .pt ∈ l) {refers : Bool} {work : State → Reply}
    (hw : ∀ t : State, t.sameBut l (work t).1) : s.sameBut l (s.withReference refers work).1 := by
  have hclaims : ∀ w, s.sameBut l (s.setPt { s.pt with waiting := w }) := fun w => by simp [State.sameBut_iff, hpt]
  rcases s.withReference_cases refers work with ⟨-, he⟩ | ⟨-, -, he⟩ | ⟨-, -, he⟩ <;> rw [he]
  · exact hw s
  · exact State.sameBut_trans (hclaims _) (hw _)
  · exact hclaims _

theorem State.withReads_sameBut (hpt : .pt ∈ l) (hpm : .pmon ∈ l) {ports : List (Fin 64)} {work : List Bool → State → Reply}
    (hw : ∀ reads (t : State), t.sameBut l (work reads t).1) : s.sameBut l (s.withReads ports work).1 := by
  rcases s.withReads_cases ports work with ⟨-, he⟩ | ⟨-, he⟩ <;> rw [he]
  · exact State.sameBut_trans (by simp [State.sameBut_iff, hpm]) (hw _ _)
  · simp [State.sameBut_iff, hpm, hpt]

theorem withIdentity_sameBut {α : Type} {ps : List Word} {others : Nat} {more : Identity → Option α}
    {work : Identity → α → Reply} (hw : ∀ i a, s.sameBut l (work i a).1) :
    s.sameBut l (withIdentity ps others more s work).1 := by
  rcases withIdentity_cases ps others more s work with he | ⟨i, a, -, -, -, he⟩ <;> rw [he]
  · exact s.sameBut_refl l
  · exact hw i a

/-- What the row of a host command touches is what its work touches, the CU and the lines of claims. -/
theorem runCommand_sameBut (hcu : .cu ∈ l) (hpt : .pt ∈ l) (hpm : .pmon ∈ l) {code : Nat} {body : List Word → State → Reply}
    (hb : ∀ ps, s.sameBut l (body ps s).1) : s.sameBut l (runCommand code body s) :=
  runCommand_keeps (P := s.sameBut l) (s.sameBut_refl l)
    (fun _ _ _ ht => State.sameBut_trans ht (by simp [State.sameBut_iff, hcu, hpt, hpm]))
    (fun _ _ => by simp [State.sameBut_iff, hcu, hpt, hpm]) hb

end

section
variable (ps : List Word) (s : State)

theorem domainSetWork_sameBut : s.sameBut [.rs] (domainSetWork ps s).1 := by
  unfold domainSetWork; dsimp only; split <;> simp [State.sameBut_iff, RouteStore.updDomain]
theorem domainReadWork_fst : (domainReadWork ps s).1 = s := by unfold domainReadWork; split <;> rfl

theorem addRoute_sameBut (i : Identity) (a : Target × RouteClass × BitVec 16) :
    s.sameBut [.rs, .routes, .pt, .records, .au] (addRoute i a s).1 := by
  unfold addRoute; (repeat' split) <;> simp [State.sameBut_iff]
theorem routeAddWork_sameBut : s.sameBut [.rs, .routes, .pt, .records, .au] (routeAddWork ps s).1 :=
  withIdentity_sameBut fun i a => State.withReference_sameBut (by simp) fun t => addRoute_sameBut t i a

theorem changeRoute_sameBut (i : Identity) (c : RouteChange) (r : Route) :
    s.sameBut [.rs, .routes, .pt, .records] (changeRoute i c r s).1 := by
  unfold changeRoute; split <;> simp [State.sameBut_iff]
theorem routeChangeWork_sameBut : s.sameBut [.rs, .routes, .pt, .records] (routeChangeWork ps s).1 := by
  refine withIdentity_sameBut fun i c => ?_
  split
  · exact s.sameBut_refl _
  · exact State.withReference_sameBut (by simp) fun t => changeRoute_sameBut t i c _

theorem routeDropWork_sameBut : s.sameBut [.rs, .routes, .pt, .records, .au] (routeDropWork ps s).1 := by
  refine withIdentity_sameBut fun i _ => ?_
  split
  · exact s.sameBut_refl _
  · exact State.withReference_sameBut (by simp) fun t => by simp [State.sameBut_iff, dropRoute]

theorem routeReadWork_fst : (routeReadWork ps s).1 = s := by
  unfold routeReadWork withIdentity; (repeat' split) <;> simp
theorem routeFindWork_fst : (routeFindWork ps s).1 = s := by unfold routeFindWork; split <;> simp

theorem exitCreateWork_sameBut : s.sameBut [.pt, .records] (exitCreateWork ps s).1 := by
  unfold exitCreateWork; (repeat' split) <;> simp [State.sameBut_iff]
theorem changeExit_sameBut (c : Option ExitWrite) : s.sameBut [.pt, .records, .pmon] (changeExit c s).1 := by
  unfold changeExit
  split
  · exact s.sameBut_refl _
  · split
    · exact s.sameBut_refl _
    · exact State.withReads_sameBut (by simp) (by simp) fun reads t => by simp [State.sameBut_iff]
theorem exitDeleteWork_sameBut : s.sameBut [.pt, .records] (exitDeleteWork ps s).1 := by
  unfold exitDeleteWork; (repeat' split) <;> simp [State.sameBut_iff]
theorem exitReadWork_sameBut : s.sameBut [.pt, .pmon] (exitReadWork ps s).1 := by
  unfold exitReadWork
  split
  · exact s.sameBut_refl _
  · split
    · exact s.sameBut_refl _
    · exact State.withReads_sameBut (by simp) (by simp) fun reads t => t.sameBut_refl _

theorem setCreateWork_sameBut : s.sameBut [.pt, .records, .pmon] (setCreateWork ps s).1 := by
  unfold setCreateWork
  split
  · exact s.sameBut_refl _
  · split
    · exact s.sameBut_refl _
    · exact State.withReads_sameBut (by simp) (by simp) fun reads t => by simp [State.sameBut_iff]
theorem setChangeWork_sameBut : s.sameBut [.pt, .records] (setChangeWork ps s).1 := by
  unfold setChangeWork; (repeat' split) <;> simp [State.sameBut_iff]
theorem setDeleteWork_sameBut : s.sameBut [.pt, .records] (setDeleteWork ps s).1 := by
  unfold setDeleteWork; (repeat' split) <;> simp [State.sameBut_iff]
theorem setReadWork_fst : (setReadWork ps s).1 = s := by unfold setReadWork; (repeat' split) <;> rfl
theorem memberAddWork_sameBut : s.sameBut [.pt, .records, .pmon] (memberAddWork ps s).1 := by
  unfold memberAddWork
  split
  · exact s.sameBut_refl _
  · split
    · exact s.sameBut_refl _
    · exact State.withReads_sameBut (by simp) (by simp) fun reads t => by simp [State.sameBut_iff]
theorem memberRemoveWork_sameBut : s.sameBut [.pt, .records] (memberRemoveWork ps s).1 := by
  unfold memberRemoveWork; (repeat' split) <;> simp [State.sameBut_iff]
theorem memberWeightWork_sameBut : s.sameBut [.pt, .records] (memberWeightWork ps s).1 := by
  unfold memberWeightWork; (repeat' split) <;> simp [State.sameBut_iff]
theorem setRefillWork_sameBut : s.sameBut [.pt, .records] (setRefillWork ps s).1 := by
  unfold setRefillWork; (repeat' split) <;> simp [State.sameBut_iff]
theorem mapReadWork_fst : (mapReadWork ps s).1 = s := by unfold mapReadWork; (repeat' split) <;> rfl

theorem portForceWork_sameBut : s.sameBut [.pt, .pmon, .ports, .au] (portForceWork ps s).1 := by
  unfold portForceWork; split <;> simp [State.sameBut_iff]
theorem portReadWork_fst : (portReadWork ps s).1 = s := by unfold portReadWork; split <;> rfl

theorem laneEnableWork_sameBut : s.sameBut [.lanes] (laneEnableWork ps s).1 := by
  unfold laneEnableWork; (repeat' split) <;> simp [State.sameBut_iff]
theorem laneDisableWork_sameBut : s.sameBut [.lanes, .pmon] (laneDisableWork ps s).1 := by
  unfold laneDisableWork; (repeat' split) <;> simp [State.sameBut_iff]
theorem laneReadWork_sameBut : s.sameBut [.lanes] (laneReadWork ps s).1 := by
  unfold laneReadWork; (repeat' split) <;> simp [State.sameBut_iff]
theorem laneWeightWork_sameBut : s.sameBut [.lanes] (laneWeightWork ps s).1 := by
  unfold laneWeightWork; dsimp only; (repeat' split) <;> simp [State.sameBut_iff]

theorem probeWork_sameBut : s.sameBut [.su] (probeWork ps s).1 := by
  unfold probeWork; split <;> simp [State.sameBut_iff]

theorem jobStartWork_sameBut : s.sameBut [.pt, .records, .je] (jobStartWork ps s).1 := by
  unfold jobStartWork; (repeat' split) <;> simp [State.sameBut_iff]
theorem jobCancelWork_sameBut : s.sameBut [.rs, .pt, .je, .au] (jobCancelWork ps s).1 := by
  unfold jobCancelWork; dsimp only; (repeat' split) <;> simp [State.sameBut_iff]
theorem jobReadWork_fst : (jobReadWork ps s).1 = s := by unfold jobReadWork; (repeat' split) <;> rfl

theorem collectWork_sameBut : s.sameBut [.je, .au] (collectWork ps s).1 := by
  unfold collectWork; split <;> simp [State.sameBut_iff]
theorem attentionMaskWork_sameBut : s.sameBut [.au] (attentionMaskWork ps s).1 := by
  unfold attentionMaskWork; dsimp only; split <;> simp [State.sameBut_iff]

theorem setParametersWork_sameBut : s.sameBut [.rs, .pmon, .au] (setParametersWork ps s).1 := by
  unfold setParametersWork; (repeat' split) <;> simp [State.sameBut_iff]

theorem State.restartUnits_sameBut : s.sameBut [.rs, .pt, .pmon, .lanes, .su, .je, .au] s.restartUnits := by
  simp [State.sameBut_iff, State.restartUnits, fours]
theorem restartWork_sameBut :
    s.sameBut [.rs, .routes, .pt, .records, .pmon, .ports, .lanes, .su, .je, .au] (restartWork ps s).1 := by
  have hu := State.sameBut_mono (l' := [.rs, .routes, .pt, .records, .pmon, .ports, .lanes, .su, .je, .au])
    s.restartUnits_sameBut (by decide)
  rcases restartWork_cases ps s with ⟨-, he⟩ | ⟨-, -, he⟩ | ⟨-, -, he⟩ <;> rw [he]
  · exact hu
  · exact State.sameBut_trans hu (by simp [State.sameBut_iff, State.restartTables])
  · exact State.sameBut_trans hu (by simp [State.sameBut_iff, State.restartTables, State.restartPorts])

end

/-! ### The rows -/

/-- The row answers a next state, with every part of the state but those listed. -/
def leavesBut (l : List Part) (s : State) (o : Out) : Prop := ∃ t, o = .next t ∧ s.sameBut l t

@[simp] theorem leavesBut_next {l : List Part} {s t : State} : leavesBut l s (.next t) ↔ s.sameBut l t :=
  ⟨fun ⟨_, h, k⟩ => Host.Outcome.next.inj h ▸ k, fun h => ⟨t, rfl, h⟩⟩

/-- What a row can touch: a host command the CU, the lines of claims and what its work touches. -/
def touches : Instr → List Part
  | .wordWrite _ => [.mp, .cu]
  | .wordRead | .abort => [.mp]
  | .workPhaseEnd => [.mp, .cu, .rs, .pt, .pmon, .au]
  | .domainSet => [.cu, .pt, .pmon, .rs]
  | .routeAdd | .routeDrop => [.cu, .pt, .pmon, .rs, .routes, .records, .au]
  | .routeChange => [.cu, .pt, .pmon, .rs, .routes, .records]
  | .exitCreate | .exitChange | .exitEnable | .exitDisable | .exitDelete => [.cu, .pt, .pmon, .records]
  | .setCreate | .setChange | .setDelete | .memberAdd | .memberRemove | .memberWeight | .setRefill =>
    [.cu, .pt, .pmon, .records]
  | .portForce => [.cu, .pt, .pmon, .ports, .au]
  | .laneEnable | .laneDisable | .laneRead | .laneWeight => [.cu, .pt, .pmon, .lanes]
  | .probe => [.cu, .pt, .pmon, .su]
  | .jobStart => [.cu, .pt, .pmon, .records, .je]
  | .jobCancel => [.cu, .pt, .pmon, .rs, .je, .au]
  | .collect => [.cu, .pt, .pmon, .je, .au]
  | .attentionMask => [.cu, .pt, .pmon, .au]
  | .setParameters => [.cu, .pt, .pmon, .rs, .au]
  | .restart => [.cu, .rs, .routes, .pt, .records, .pmon, .ports, .lanes, .su, .je, .au]
  | .domainRead | .routeRead | .routeFind | .exitRead | .setRead | .mapRead | .portRead | .jobRead | .identify
  | .readParameters | .readSpace => [.cu, .pt, .pmon]
  | .restartComplete => [.cu]
  | .signalDetected _ | .alignmentComplete _ | .creditSent _ | .resultSent _ => [.lanes]
  | .signalLost _ _ => [.lanes, .pmon, .au]
  | .lookupN .. | .lookupW .. | .checkFailure .. | .malformedMessage .. => [.lanes, .au]
  | .port .. => [.lanes, .pmon, .au]
  | .reportTaken => [.pt, .pmon, .ports, .lanes, .au]
  | .holdDownExpiry _ => [.pt, .pmon, .ports, .au]
  | .visitClaim _ => [.pt, .records, .pmon, .ports]
  | .grant => [.cu, .lanes, .su]
  | .lookupClaim => [.cu, .rs, .routes, .lanes, .su]
  | .resolutionClaim => [.cu, .pt, .pmon, .lanes, .su]
  | .stepClaim => [.cu, .rs, .routes, .pt, .records, .je, .au]
  | .refillClaim | .pinClaim _ => [.cu, .pt, .records, .je, .au]
  | .hardwareReset _ | .supplyInvalid _ => [.mp, .cu, .pt, .pmon, .ports, .lanes, .su, .je, .au, .dev]
  | .resetRelease | .supplyValid => [.mp, .dev]
  | .startupClearingEnd =>
    [.mp, .cu, .rs, .routes, .pt, .records, .pmon, .ports, .lanes, .su, .je, .au, .dev]

section
variable (s : State)

/-- The row of a host command whose work touches no more than the row may. -/
theorem runCommand_leavesBut {l l' : List Part} (hl : l ++ [.cu, .pt, .pmon] ⊆ l') {code : Nat}
    {body : List Word → State → Reply} (hb : ∀ ps, s.sameBut l (body ps s).1) :
    leavesBut l' s (.next (runCommand code body s)) :=
  leavesBut_next.mpr (runCommand_sameBut (hl (by simp)) (hl (by simp)) (hl (by simp)) fun ps =>
    State.sameBut_mono (hb ps) fun _ hp => hl (List.mem_append_left _ hp))

/-- The row of a host command whose work only reads. -/
theorem runCommand_leavesBut_of_fst {l : List Part} (hl : [.cu, .pt, .pmon] ⊆ l) {code : Nat}
    {body : List Word → State → Reply} (hb : ∀ ps, (body ps s).1 = s) : leavesBut l s (.next (runCommand code body s)) :=
  runCommand_leavesBut s (l := []) (by simpa using hl) fun ps => by rw [hb]; exact s.sameBut_refl _

theorem execWordWrite_leavesBut (w : Word) : leavesBut [.mp, .cu] s (execWordWrite w s) := by
  have hc : ∀ (t : State) ws cs, t.sameBut [.mp, .cu] (t.completeCommand ws cs) := fun t ws cs => by
    unfold State.completeCommand; split <;> simp [State.sameBut_iff]
  rw [execWordWrite, leavesBut_next]
  split
  case h_1 => exact s.sameBut_refl _
  case h_2 => simp [State.sameBut_iff]
  case h_3 =>
    split
    case h_1 =>
      unfold State.takeFirstWord
      (repeat' split)
      · simp [State.sameBut_iff]
      · exact State.sameBut_trans (by simp [State.sameBut_iff]) (hc _ _ _)
      · simp [State.sameBut_iff]
    case h_2 =>
      unfold State.takeParameter
      dsimp only
      split
      · simp [State.sameBut_iff]
      · exact hc s _ _
    all_goals simp [State.sameBut_iff]

theorem execWordRead_leavesBut : leavesBut [.mp] s (execWordRead s) := by
  rw [execWordRead, leavesBut_next]; split <;> simp [State.sameBut_iff]
theorem execAbort_leavesBut : leavesBut [.mp] s (execAbort s) := by
  rw [execAbort, leavesBut_next]; (repeat' split) <;> simp [State.sameBut_iff]
theorem execWorkPhaseEnd_leavesBut : leavesBut [.mp, .cu, .rs, .pt, .pmon, .au] s (execWorkPhaseEnd s) := by
  unfold execWorkPhaseEnd; dsimp only; rw [leavesBut_next]; (repeat' split) <;> simp [State.sameBut_iff]
theorem execRestartComplete_leavesBut : leavesBut [.cu] s (execRestartComplete s) := by
  unfold execRestartComplete; (repeat' split) <;> simp [State.sameBut_iff]

theorem execSignalDetected_leavesBut (n : Fin 4) : leavesBut [.lanes] s (execSignalDetected n s) := by
  unfold execSignalDetected; dsimp only; split <;> simp [State.sameBut_iff]
theorem execAlignmentComplete_leavesBut (n : Fin 4) : leavesBut [.lanes] s (execAlignmentComplete n s) := by
  unfold execAlignmentComplete; split <;> simp [State.sameBut_iff]
theorem execSignalLost_leavesBut (n : Fin 4) (c : LossCause) : leavesBut [.lanes, .pmon, .au] s (execSignalLost n c s) := by
  unfold execSignalLost; dsimp only; (repeat' split) <;> simp [State.sameBut_iff]
theorem execLookupN_leavesBut (n : Fin 4) (tag : Byte) (d : Fin 16) (m : Bool) (h : BitVec 16) (k : BitVec 32) :
    leavesBut [.lanes, .au] s (execLookupN n tag d m h k s) := by
  unfold execLookupN; split <;> simp [State.sameBut_iff]
theorem execLookupW_leavesBut (n : Fin 4) (tag : Byte) (d : Fin 16) (m : Bool) (h : BitVec 16) (k : BitVec 128) :
    leavesBut [.lanes, .au] s (execLookupW n tag d m h k s) := by
  unfold execLookupW; split <;> simp [State.sameBut_iff]
theorem execPort_leavesBut (n : Fin 4) (p : Fin 64) (x : ReportedState) :
    leavesBut [.lanes, .pmon, .au] s (execPort n p x s) := by
  unfold execPort; dsimp only; (repeat' split) <;> simp [State.sameBut_iff]
theorem execCheckFailure_leavesBut (n : Fin 4) (ws : List Word) : leavesBut [.lanes, .au] s (execCheckFailure n ws s) := by
  unfold execCheckFailure; split <;> simp [State.sameBut_iff]
theorem execMalformedMessage_leavesBut (n : Fin 4) (ws : List Word) :
    leavesBut [.lanes, .au] s (execMalformedMessage n ws s) := by
  unfold execMalformedMessage; (repeat' split) <;> simp [State.sameBut_iff]
theorem execCreditSent_leavesBut (n : Fin 4) : leavesBut [.lanes] s (execCreditSent n s) := by
  unfold execCreditSent; (repeat' split) <;> simp [State.sameBut_iff]
theorem execResultSent_leavesBut (n : Fin 4) : leavesBut [.lanes] s (execResultSent n s) := by
  unfold execResultSent; (repeat' split) <;> simp [State.sameBut_iff]

theorem execReportTaken_leavesBut : leavesBut [.pt, .pmon, .ports, .lanes, .au] s (execReportTaken s) := by
  unfold execReportTaken; dsimp only; (repeat' split) <;> simp [State.sameBut_iff]
theorem execHoldDownExpiry_leavesBut (p : Fin 64) : leavesBut [.pt, .pmon, .ports, .au] s (execHoldDownExpiry p s) := by
  unfold execHoldDownExpiry; dsimp only; (repeat' split) <;> simp [State.sameBut_iff]
theorem execVisitClaim_leavesBut (p : Fin 64) : leavesBut [.pt, .records, .pmon, .ports] s (execVisitClaim p s) := by
  unfold execVisitClaim; (repeat' split) <;> simp [State.sameBut_iff]

theorem execGrant_leavesBut : leavesBut [.cu, .lanes, .su] s (execGrant s) := by
  unfold execGrant; (repeat' split) <;> simp [State.sameBut_iff]
theorem execLookupClaim_leavesBut : leavesBut [.cu, .rs, .routes, .lanes, .su] s (execLookupClaim s) := by
  unfold execLookupClaim; (repeat' split) <;> simp [State.sameBut_iff]
theorem execResolutionClaim_leavesBut : leavesBut [.cu, .pt, .pmon, .lanes, .su] s (execResolutionClaim s) := by
  unfold execResolutionClaim
  (repeat' split) <;> simp [State.sameBut_iff, State.finishResolution]

theorem State.makeStep_sameBut (j : Job) (f : Filter) (a : Action) :
    s.sameBut [.rs, .routes, .pt, .records, .au] (s.makeStep j f a).1 := by simp [State.sameBut_iff]
theorem execStepClaim_leavesBut : leavesBut [.cu, .rs, .routes, .pt, .records, .je, .au] s (execStepClaim s) := by
  unfold execStepClaim; (repeat' split) <;> simp [State.sameBut_iff]
theorem execRefillClaim_leavesBut : leavesBut [.cu, .pt, .records, .je, .au] s (execRefillClaim s) := by
  unfold execRefillClaim; dsimp only; (repeat' split) <;> simp [State.sameBut_iff]
theorem execPinClaim_leavesBut (n : Fin 4) : leavesBut [.cu, .pt, .records, .je, .au] s (execPinClaim n s) := by
  unfold execPinClaim; (repeat' split) <;> simp [State.sameBut_iff]

theorem State.takeReset_sameBut : s.sameBut [.mp, .cu, .pt, .pmon, .ports, .lanes, .su, .je, .au, .dev] s.takeReset := by
  simp [State.sameBut_iff, State.takeReset, State.abandonWork]
theorem execHardwareReset_leavesBut (ns : Nat) :
    leavesBut [.mp, .cu, .pt, .pmon, .ports, .lanes, .su, .je, .au, .dev] s (execHardwareReset ns s) := by
  rw [execHardwareReset, leavesBut_next]
  split
  · exact State.sameBut_trans (by simp [State.sameBut_iff]) (State.takeReset_sameBut _)
  · exact s.sameBut_refl _
theorem execSupplyInvalid_leavesBut (rail : Rail) :
    leavesBut [.mp, .cu, .pt, .pmon, .ports, .lanes, .su, .je, .au, .dev] s (execSupplyInvalid rail s) :=
  leavesBut_next.mpr (State.sameBut_trans (by simp [State.sameBut_iff]) (State.takeReset_sameBut _))
theorem execResetRelease_leavesBut : leavesBut [.mp, .dev] s (execResetRelease s) := by
  simp [execResetRelease, State.sameBut_iff]
theorem execSupplyValid_leavesBut : leavesBut [.mp, .dev] s (execSupplyValid s) := by
  simp [execSupplyValid, State.sameBut_iff]
theorem execStartupClearingEnd_leavesBut :
    leavesBut [.mp, .cu, .rs, .routes, .pt, .records, .pmon, .ports, .lanes, .su, .je, .au, .dev] s
      (execStartupClearingEnd s) := by
  unfold execStartupClearingEnd State.cleared; split <;> simp [State.sameBut_iff]

/-- Every row answers a next state, and leaves every part of the state that it does not touch. -/
theorem exec_leavesBut (i : Instr) : leavesBut (touches i) s (exec i s) := by
  cases i with
  | wordWrite w => exact execWordWrite_leavesBut s w
  | wordRead => exact execWordRead_leavesBut s
  | abort => exact execAbort_leavesBut s
  | workPhaseEnd => exact execWorkPhaseEnd_leavesBut s
  | domainSet => exact runCommand_leavesBut s (by decide) fun ps => domainSetWork_sameBut ps s
  | domainRead => exact runCommand_leavesBut_of_fst s (by decide) fun ps => domainReadWork_fst ps s
  | routeAdd => exact runCommand_leavesBut s (by decide) fun ps => routeAddWork_sameBut ps s
  | routeChange => exact runCommand_leavesBut s (by decide) fun ps => routeChangeWork_sameBut ps s
  | routeDrop => exact runCommand_leavesBut s (by decide) fun ps => routeDropWork_sameBut ps s
  | routeRead => exact runCommand_leavesBut_of_fst s (by decide) fun ps => routeReadWork_fst ps s
  | routeFind => exact runCommand_leavesBut_of_fst s (by decide) fun ps => routeFindWork_fst ps s
  | exitCreate => exact runCommand_leavesBut s (by decide) fun ps => exitCreateWork_sameBut ps s
  | exitChange => exact runCommand_leavesBut s (by decide) fun _ => changeExit_sameBut s _
  | exitEnable => exact runCommand_leavesBut s (by decide) fun _ => changeExit_sameBut s _
  | exitDisable => exact runCommand_leavesBut s (by decide) fun _ => changeExit_sameBut s _
  | exitDelete => exact runCommand_leavesBut s (by decide) fun ps => exitDeleteWork_sameBut ps s
  | exitRead => exact runCommand_leavesBut s (by decide) fun ps => exitReadWork_sameBut ps s
  | setCreate => exact runCommand_leavesBut s (by decide) fun ps => setCreateWork_sameBut ps s
  | setChange => exact runCommand_leavesBut s (by decide) fun ps => setChangeWork_sameBut ps s
  | setDelete => exact runCommand_leavesBut s (by decide) fun ps => setDeleteWork_sameBut ps s
  | setRead => exact runCommand_leavesBut_of_fst s (by decide) fun ps => setReadWork_fst ps s
  | memberAdd => exact runCommand_leavesBut s (by decide) fun ps => memberAddWork_sameBut ps s
  | memberRemove => exact runCommand_leavesBut s (by decide) fun ps => memberRemoveWork_sameBut ps s
  | memberWeight => exact runCommand_leavesBut s (by decide) fun ps => memberWeightWork_sameBut ps s
  | setRefill => exact runCommand_leavesBut s (by decide) fun ps => setRefillWork_sameBut ps s
  | mapRead => exact runCommand_leavesBut_of_fst s (by decide) fun ps => mapReadWork_fst ps s
  | portForce => exact runCommand_leavesBut s (by decide) fun ps => portForceWork_sameBut ps s
  | portRead => exact runCommand_leavesBut_of_fst s (by decide) fun ps => portReadWork_fst ps s
  | laneEnable => exact runCommand_leavesBut s (by decide) fun ps => laneEnableWork_sameBut ps s
  | laneDisable => exact runCommand_leavesBut s (by decide) fun ps => laneDisableWork_sameBut ps s
  | laneRead => exact runCommand_leavesBut s (by decide) fun ps => laneReadWork_sameBut ps s
  | laneWeight => exact runCommand_leavesBut s (by decide) fun ps => laneWeightWork_sameBut ps s
  | probe => exact runCommand_leavesBut s (by decide) fun ps => probeWork_sameBut ps s
  | jobStart => exact runCommand_leavesBut s (by decide) fun ps => jobStartWork_sameBut ps s
  | jobCancel => exact runCommand_leavesBut s (by decide) fun ps => jobCancelWork_sameBut ps s
  | jobRead => exact runCommand_leavesBut_of_fst s (by decide) fun ps => jobReadWork_fst ps s
  | collect => exact runCommand_leavesBut s (by decide) fun ps => collectWork_sameBut ps s
  | attentionMask => exact runCommand_leavesBut s (by decide) fun ps => attentionMaskWork_sameBut ps s
  | identify => exact runCommand_leavesBut_of_fst s (by decide) fun _ => rfl
  | setParameters => exact runCommand_leavesBut s (by decide) fun ps => setParametersWork_sameBut ps s
  | readParameters => exact runCommand_leavesBut_of_fst s (by decide) fun _ => rfl
  | readSpace => exact runCommand_leavesBut_of_fst s (by decide) fun _ => rfl
  | restart => exact runCommand_leavesBut s (by decide) fun ps => restartWork_sameBut ps s
  | restartComplete => exact execRestartComplete_leavesBut s
  | signalDetected n => exact execSignalDetected_leavesBut s n
  | alignmentComplete n => exact execAlignmentComplete_leavesBut s n
  | signalLost n cause => exact execSignalLost_leavesBut s n cause
  | lookupN n tag d mark hash k => exact execLookupN_leavesBut s n tag d mark hash k
  | lookupW n tag d mark hash k => exact execLookupW_leavesBut s n tag d mark hash k
  | port n p st => exact execPort_leavesBut s n p st
  | checkFailure n ws => exact execCheckFailure_leavesBut s n ws
  | malformedMessage n ws => exact execMalformedMessage_leavesBut s n ws
  | creditSent n => exact execCreditSent_leavesBut s n
  | resultSent n => exact execResultSent_leavesBut s n
  | reportTaken => exact execReportTaken_leavesBut s
  | holdDownExpiry p => exact execHoldDownExpiry_leavesBut s p
  | visitClaim p => exact execVisitClaim_leavesBut s p
  | grant => exact execGrant_leavesBut s
  | lookupClaim => exact execLookupClaim_leavesBut s
  | resolutionClaim => exact execResolutionClaim_leavesBut s
  | stepClaim => exact execStepClaim_leavesBut s
  | refillClaim => exact execRefillClaim_leavesBut s
  | pinClaim n => exact execPinClaim_leavesBut s n
  | hardwareReset ns => exact execHardwareReset_leavesBut s ns
  | supplyInvalid rail => exact execSupplyInvalid_leavesBut s rail
  | resetRelease => exact execResetRelease_leavesBut s
  | supplyValid => exact execSupplyValid_leavesBut s
  | startupClearingEnd => exact execStartupClearingEnd_leavesBut s

end

/-- A part that the row does not touch is the same in its next state. -/
theorem exec_same {i : Instr} {s t : State} (h : exec i s = .next t) {p : Part} (hp : p ∉ touches i) : p.same s t := by
  obtain ⟨u, hu, hs⟩ := exec_leavesBut s i
  rw [h] at hu
  cases hu
  exact hs p hp

/-! ### What a row or a step leads to -/

/-- The next state of the row has the property. -/
def leadsTo (P : State → Prop) (o : Out) : Prop := ∀ t, o = .next t → P t

@[simp] theorem leadsTo_next {P : State → Prop} {t : State} : leadsTo P (.next t) ↔ P t :=
  ⟨fun h => h t rfl, fun h _ ht => Host.Outcome.next.inj ht ▸ h⟩

/-- A property that the queue has no part in, and that the idle step and every row keep, is kept by every step. -/
theorem step_keeps {P : State → Prop} (hpend : ∀ s q, P s → P (s.setPending q)) (htick : ∀ s, P s → P s.tick)
    (hexec : ∀ i s, P s → leadsTo P (exec i s)) {s t : State} (hs : P s) (h : step s = .next t) : P t := by
  unfold step at h
  split at h
  case h_1 =>
    cases h
    exact htick s hs
  case h_2 c rest _ => exact hexec c _ (hpend s rest hs) t h

/-- Settles O2: every row answers a next state, and no row touches the queue. -/
theorem everyCommandAnswersANextState : Obligations.EveryCommandAnswersANextState := by
  intro c s
  obtain ⟨t, ht, hs⟩ := exec_leavesBut s c
  exact ⟨t, ht, hs .pending (by cases c <;> simp [touches])⟩

end Sys2Proof.Machine
end

section
/-! PROOFS. The law of the Route Store (R3, R4, R8): table order, units in use and route counts, under each change of the
route table and under the step. -/

namespace Sys2Proof.Machine

-- The proofs are elaborated one after another: each thread counts against the memory in which the text is checked.
set_option Elab.async false

/-! ### What the law reads -/

/-- The law reads the routes, the units and the route counts, and nothing else of the Route Store. -/
theorem RouteStore.lawful_congr {rs rs' : RouteStore} (h : rs.lawful) (hr : rs'.routes = rs.routes)
    (hu : rs'.units = rs.units) (hd : ∀ d, (rs'.domain d).narrowCount = (rs.domain d).narrowCount ∧
      (rs'.domain d).wideCount = (rs.domain d).wideCount) : rs'.lawful := by
  obtain ⟨hsort, hunits, hmax, hcount⟩ := h
  refine ⟨hr ▸ hsort, hr ▸ hu ▸ hunits, hu ▸ hmax, fun d => ?_⟩
  rw [(hd d).1, (hd d).2, hr]
  exact hcount d

@[simp] theorem State.evalWatermark_rsLawful (s : State) : s.evalWatermark.rs.lawful ↔ s.rs.lawful := by
  unfold State.evalWatermark
  split
  · exact Iff.rfl
  · split
    · rw [State.post_rs]
      exact Iff.rfl
    · exact Iff.rfl

theorem RouteStore.reset_lawful : RouteStore.reset.lawful :=
  ⟨.nil, rfl, by decide, fun d => by simp [RouteStore.reset, RouteStore.resetDomains, RouteStore.domain, Domain.reset]⟩

theorem RouteStore.restart_lawful (rs : RouteStore) : rs.restart.lawful :=
  RouteStore.lawful_congr RouteStore.reset_lawful rfl rfl fun _ => ⟨rfl, rfl⟩

/-! ### Route counts -/

/-- A count of a domain and family changes, and no other. -/
theorem RouteStore.countFamily_counts (rs : RouteStore) (d c : Fin 16) (fam : Family) (f : Nat → Nat) :
    ((rs.countFamily d fam f).domain c).narrowCount =
      (if d = c ∧ fam = .narrow then f (rs.domain c).narrowCount else (rs.domain c).narrowCount) ∧
    ((rs.countFamily d fam f).domain c).wideCount =
      (if d = c ∧ fam = .wide then f (rs.domain c).wideCount else (rs.domain c).wideCount) := by
  unfold RouteStore.countFamily
  by_cases h : d = c
  · subst h
    rw [RouteStore.updDomain_self]
    cases fam <;> simp
  · rw [RouteStore.updDomain_ne rs _ (Ne.symm h)]
    simp [h]

/-- A route counts in its own domain and family. -/
theorem countP_family_cons (r : Route) (l : List Route) (d : Fin 16) (fam : Family) :
    (r :: l).countP (fun x => x.ident.domain == d && x.family == fam) =
      l.countP (fun x => x.ident.domain == d && x.family == fam) +
        if r.ident.domain = d ∧ r.family = fam then 1 else 0 := by
  simp [List.countP_cons]

/-! ### The changes of the route table -/

section
variable {s : State} (h : s.rs.lawful)
include h

/-- A route of a new identity, for which there is room, goes in (R9). -/
theorem State.insertRoute_rsLawful {r : Route} (hnew : s.rs.find? r.ident = none)
    (hroom : s.rs.units + r.family.size ≤ Config.storageUnits) : (s.insertRoute r).rs.lawful := by
  obtain ⟨hsort, hunits, -, hcount⟩ := h
  have hperm := insertRoute_perm r s.rs.routes
  rw [State.insertRoute, State.evalWatermark_rsLawful]
  refine ⟨insertRoute_sorted hsort (RouteStore.find?_none hnew), ?_, hroom, fun d => ?_⟩
  · show s.rs.units + r.family.size = ((Machine.insertRoute r s.rs.routes).map fun x => x.family.size).sum
    rw [(hperm.map _).sum_eq, List.map_cons, List.sum_cons, hunits, Nat.add_comm]
  · obtain ⟨hn, hw⟩ := hcount d
    obtain ⟨cn, cw⟩ := RouteStore.countFamily_counts { s.rs with
      routes := Machine.insertRoute r s.rs.routes, units := s.rs.units + r.family.size } r.ident.domain d r.family (· + 1)
    refine ⟨cn.trans ?_, cw.trans ?_⟩
    · show _ = (Machine.insertRoute r s.rs.routes).countP _
      rw [hperm.countP_eq, countP_family_cons, ← hn]
      split <;> rfl
    · show _ = (Machine.insertRoute r s.rs.routes).countP _
      rw [hperm.countP_eq, countP_family_cons, ← hw]
      split <;> rfl

/-- A route of the table leaves it (R10). -/
theorem State.withdrawRoute_rsLawful {r : Route} (hr : r ∈ s.rs.routes) : (s.withdrawRoute r).rs.lawful := by
  obtain ⟨hsort, hunits, hmax, hcount⟩ := h
  have hperm := filter_ident_perm hsort hr
  have hsum := (hperm.map fun x => x.family.size).sum_eq
  rw [List.map_cons, List.sum_cons, ← hunits] at hsum
  rw [State.withdrawRoute, State.evalWatermark_rsLawful]
  refine ⟨hsort.filter _, ?_, ?_, fun d => ?_⟩
  · show s.rs.units - r.family.size = ((s.rs.routes.filter (·.ident != r.ident)).map fun x => x.family.size).sum
    omega
  · exact (Nat.sub_le _ _).trans hmax
  · obtain ⟨hn, hw⟩ := hcount d
    rw [← hperm.countP_eq, countP_family_cons] at hn hw
    obtain ⟨cn, cw⟩ := RouteStore.countFamily_counts { s.rs with
      routes := s.rs.routes.filter (·.ident != r.ident), units := s.rs.units - r.family.size }
      r.ident.domain d r.family (· - 1)
    refine ⟨cn.trans ?_, cw.trans ?_⟩
    · show _ = (s.rs.routes.filter (·.ident != r.ident)).countP _
      change (if _ then (s.rs.domain d).narrowCount - 1 else (s.rs.domain d).narrowCount) = _
      split <;> simp_all
    · show _ = (s.rs.routes.filter (·.ident != r.ident)).countP _
      change (if _ then (s.rs.domain d).wideCount - 1 else (s.rs.domain d).wideCount) = _
      split <;> simp_all

end

/-- A change of one route's fields other than its identity moves, adds and removes none. -/
theorem RouteStore.updRoute_lawful {rs : RouteStore} (h : rs.lawful) (i : Identity) {f : Route → Route}
    (hf : ∀ r, (f r).ident = r.ident) : (rs.updRoute i f).lawful := by
  obtain ⟨hsort, hunits, hmax, hcount⟩ := h
  have hi : ∀ r : Route, (if r.ident == i then f r else r).ident = r.ident := fun r => by split <;> simp [hf]
  refine ⟨List.pairwise_map.mpr (hsort.imp fun hab => by rwa [hi, hi]), ?_, hmax, fun d => ?_⟩
  · show rs.units = ((rs.routes.map fun r => if r.ident == i then f r else r).map fun r => r.family.size).sum
    simpa only [List.map_map, Function.comp_def, Route.family, hi] using hunits
  · show _ = (rs.routes.map fun r => if r.ident == i then f r else r).countP _ ∧
      _ = (rs.routes.map fun r => if r.ident == i then f r else r).countP _
    simp only [List.countP_map, Function.comp_def, Route.family, hi]
    exact hcount d

/-! ### The work of the commands and of the jobs -/

theorem RouteChange.apply_ident (c : RouteChange) (r : Route) : (c.apply r).ident = r.ident := by
  unfold RouteChange.apply
  dsimp only
  split <;> rfl

/-- The route that a SURVEY step visits is a route of the table (R133). -/
theorem RouteStore.surveyed_mem {rs : RouteStore} {f : Filter} {c : Option Cursor} {r : Route}
    (hr : rs.surveyed f c = some r) : r ∈ rs.routes := by
  unfold RouteStore.surveyed at hr
  split at hr
  · exact (RouteStore.successor_some (Option.filter_eq_some_iff.mp hr).1).1
  · exact List.mem_of_find?_eq_some hr

section
variable {s : State} (h : s.rs.lawful)
include h

theorem domainSetWork_rsLawful (ps : List Word) : (domainSetWork ps s).1.rs.lawful := by
  unfold domainSetWork
  dsimp only
  split
  · rename_i d en miss _ _ _
    refine RouteStore.lawful_congr h rfl rfl fun c => ?_
    simp only [answerOk_fst, State.setRs_rs]
    by_cases hc : c = d
    · subst hc
      rw [RouteStore.updDomain_self]
      exact ⟨rfl, rfl⟩
    · rw [RouteStore.updDomain_ne s.rs _ hc]
      exact ⟨rfl, rfl⟩
  · exact h

theorem State.writeWatermarks_rsLawful (x : Option (Nat × Nat)) : (s.writeWatermarks x).rs.lawful := by
  unfold State.writeWatermarks
  split
  · exact h
  · exact (State.evalWatermark_rsLawful _).mpr h

/-- The work within a reference claim keeps the law when the work does. -/
theorem State.withReference_rsLawful (refers : Bool) {work : State → Reply}
    (hw : ∀ t : State, t.rs = s.rs → (work t).1.rs.lawful) : (s.withReference refers work).1.rs.lawful := by
  rcases s.withReference_cases refers work with ⟨-, he⟩ | ⟨-, -, he⟩ | ⟨-, -, he⟩ <;> rw [he]
  · exact hw s rfl
  · exact hw _ rfl
  · exact h

theorem withIdentity_rsLawful {α : Type} (ps : List Word) (others : Nat) (more : Identity → Option α)
    {work : Identity → α → Reply} (hw : ∀ i a, (work i a).1.rs.lawful) :
    (withIdentity ps others more s work).1.rs.lawful := by
  rcases withIdentity_cases ps others more s work with he | ⟨i, a, -, -, -, he⟩ <;> rw [he]
  · exact h
  · exact hw i a

theorem addRoute_rsLawful (i : Identity) (a : Target × RouteClass × BitVec 16) : (addRoute i a s).1.rs.lawful := by
  unfold addRoute
  split
  · exact h
  · rename_i pt _
    split
    · exact h
    · rename_i hnew
      split
      · exact h
      · rename_i hroom
        exact State.insertRoute_rsLawful (s := s.setPt pt) h (Option.not_isSome_iff_eq_none.mp hnew)
          (Nat.le_of_not_lt hroom)

theorem routeAddWork_rsLawful (ps : List Word) : (routeAddWork ps s).1.rs.lawful :=
  withIdentity_rsLawful h ps _ _ fun i a => State.withReference_rsLawful h _ fun _ ht => addRoute_rsLawful (ht ▸ h) i a

theorem routeChangeWork_rsLawful (ps : List Word) : (routeChangeWork ps s).1.rs.lawful := by
  refine withIdentity_rsLawful h ps _ _ fun i c => ?_
  split
  · exact h
  · refine State.withReference_rsLawful h _ fun t ht => ?_
    unfold changeRoute
    split
    · exact ht ▸ h
    · exact RouteStore.updRoute_lawful (ht ▸ h) i c.apply_ident

theorem routeDropWork_rsLawful (ps : List Word) : (routeDropWork ps s).1.rs.lawful := by
  refine withIdentity_rsLawful h ps _ _ fun i _ => ?_
  split
  · exact h
  · rename_i r hr
    exact State.withReference_rsLawful h _ fun t ht =>
      State.withdrawRoute_rsLawful (s := t) (ht ▸ h) (ht ▸ (RouteStore.find?_some hr).1)

theorem setParametersWork_rsLawful (ps : List Word) : (setParametersWork ps s).1.rs.lawful := by
  unfold setParametersWork
  split
  · exact h
  · split
    · exact State.writeWatermarks_rsLawful h _
    · simpa using h

theorem State.withdrawStep_rsLawful (n : Fin 4) : (s.withdrawStep n).rs.lawful := by
  unfold State.withdrawStep
  (repeat' split) <;> exact h

theorem jobCancelWork_rsLawful (ps : List Word) : (jobCancelWork ps s).1.rs.lawful := by
  unfold jobCancelWork
  split
  · exact h
  · split
    · split
      · exact h
      · simpa using State.withdrawStep_rsLawful h _
    · exact h

theorem restartWork_rsLawful (ps : List Word) : (restartWork ps s).1.rs.lawful := by
  rcases restartWork_cases ps s with ⟨-, he⟩ | ⟨-, -, he⟩ | ⟨-, -, he⟩ <;> rw [he]
  · exact h
  all_goals exact RouteStore.restart_lawful _

theorem RouteStore.markMatch_lawful (mark : Bool) (r : Route) : (s.rs.markMatch mark r).lawful := by
  unfold RouteStore.markMatch
  split
  · exact RouteStore.updRoute_lawful h _ fun _ => rfl
  · exact h

theorem State.lookupClaim_rsLawful (k : Lookup) : (s.lookupClaim k).rs.lawful := by
  unfold State.lookupClaim
  dsimp only
  split
  · simpa using h
  · split
    · simpa using h
    · split <;> simpa using RouteStore.markMatch_lawful h _ _

theorem State.applyAction_rsLawful (a : Action) {r : Route} (hr : r ∈ s.rs.routes) : (s.applyAction a r).rs.lawful := by
  cases a with
  | count => exact h
  | retire => exact State.withdrawRoute_rsLawful h hr
  | repoint t => exact RouteStore.updRoute_lawful h _ fun _ => rfl
  | sweep =>
    unfold State.applyAction
    dsimp only
    split
    · exact RouteStore.updRoute_lawful h _ fun _ => rfl
    · exact State.withdrawRoute_rsLawful h hr
  | clearMarks => exact RouteStore.updRoute_lawful h _ fun _ => rfl

theorem State.survey_rsLawful (j : Job) (f : Filter) (a : Action) : (s.survey j f a).1.rs.lawful := by
  unfold State.survey
  split
  · exact h
  · rename_i r hr
    dsimp only
    split
    · exact State.applyAction_rsLawful h a (RouteStore.surveyed_mem hr)
    · exact h

theorem State.makeStep_rsLawful (j : Job) (f : Filter) (a : Action) : (s.makeStep j f a).1.rs.lawful := by
  rcases s.makeStep_cases j f a with ⟨-, he⟩ | ⟨-, -, he⟩ | ⟨-, -, he⟩ <;> rw [he]
  · exact State.survey_rsLawful (s := s.setRs { s.rs with fairness := 0 }) h j f a
  · exact State.survey_rsLawful (s := (s.setRs { s.rs with fairness := 0 }).setPt (s.pt.withdraw .reference)) h j f a
  · exact h

/-! ### The rows and the step -/

theorem runCommand_rsLawful (code : Nat) {body : List Word → State → Reply} (hb : ∀ ps, (body ps s).1.rs.lawful) :
    (runCommand code body s).rs.lawful :=
  runCommand_keeps (P := fun t => t.rs.lawful) h (fun t ws x ht => by simpa using ht) (fun _ _ => h) hb

theorem State.lastClaim_rsLawful : s.lastClaim.rs.lawful := by
  unfold State.lastClaim
  (repeat' split)
  case h_4.isTrue => simpa using State.writeWatermarks_rsLawful h _
  all_goals simpa using h

theorem execWorkPhaseEnd_rsLawful : leadsTo (·.rs.lawful) (execWorkPhaseEnd s) := by
  unfold execWorkPhaseEnd
  dsimp only
  rw [leadsTo_next]
  (repeat' split)
  · exact State.lastClaim_rsLawful h
  · exact State.lastClaim_rsLawful h
  · exact h

theorem execLookupClaim_rsLawful : leadsTo (·.rs.lawful) (execLookupClaim s) := by
  have hpassed : (s.setRs { s.rs with fairness := s.rs.fairness + 1 }).rs.lawful := h
  unfold execLookupClaim
  (repeat' split) <;> rw [leadsTo_next]
  · exact h
  · exact State.lookupClaim_rsLawful hpassed _
  · exact State.lookupClaim_rsLawful h _
  · exact h

theorem execStepClaim_rsLawful : leadsTo (·.rs.lawful) (execStepClaim s) := by
  unfold execStepClaim
  (repeat' split) <;> simp only [leadsTo_next, State.droppedMade_rs, State.stepMade_rs, State.makeStep_rsLawful h, h]

/-- A row that touches the Route Store keeps its law; any other leaves it as it is. -/
theorem exec_rsLawful (i : Instr) : leadsTo (·.rs.lawful) (exec i s) := by
  by_cases hp : Part.rs ∈ touches i
  · cases i <;> simp only [touches, List.mem_cons, List.not_mem_nil, or_false, reduceCtorEq, or_self, or_true] at hp
    case workPhaseEnd => exact execWorkPhaseEnd_rsLawful h
    case domainSet => exact leadsTo_next.mpr (runCommand_rsLawful h _ (domainSetWork_rsLawful h))
    case routeAdd => exact leadsTo_next.mpr (runCommand_rsLawful h _ (routeAddWork_rsLawful h))
    case routeChange => exact leadsTo_next.mpr (runCommand_rsLawful h _ (routeChangeWork_rsLawful h))
    case routeDrop => exact leadsTo_next.mpr (runCommand_rsLawful h _ (routeDropWork_rsLawful h))
    case jobCancel => exact leadsTo_next.mpr (runCommand_rsLawful h _ (jobCancelWork_rsLawful h))
    case setParameters => exact leadsTo_next.mpr (runCommand_rsLawful h _ (setParametersWork_rsLawful h))
    case restart => exact leadsTo_next.mpr (runCommand_rsLawful h _ (restartWork_rsLawful h))
    case lookupClaim => exact execLookupClaim_rsLawful h
    case stepClaim => exact execStepClaim_rsLawful h
    case startupClearingEnd =>
      show leadsTo _ (.next _)
      rw [leadsTo_next]
      split
      · exact RouteStore.reset_lawful
      · exact h
  · intro t ht
    have hs : t.rs = s.rs := exec_same ht hp
    exact hs ▸ h

theorem State.tick_rsLawful : s.tick.rs.lawful := by
  suffices s.takeStep.rs.lawful by simpa [State.tick]
  unfold State.takeStep
  dsimp only
  (repeat' split) <;> exact h

end

/-- Settles O52: the step is an idle one, which at most returns the fairness count to 0, or a row's. -/
theorem routeStoreLawKept : Obligations.RouteStoreLawKept := fun _ _ h hstep =>
  step_keeps (P := fun s => s.rs.lawful) (fun _ _ h => h) (fun _ h => State.tick_rsLawful h)
    (fun i _ h => exec_rsLawful h i) h hstep

end Sys2Proof.Machine
end

section
/-! PROOFS. The law of the port records (R70, R71, R73, R75) under each claim on the port table and under the step. -/

namespace Sys2Proof.Machine

-- The proofs are elaborated one after another: each thread counts against the memory in which the text is checked.
set_option Elab.async false

/-! ### A change of one port's record -/

/-- The timer runs exactly in RECOVERING: the part of the law that a claim's change has to keep itself, as the effective state
is computed anew. -/
def Port.timed (x : Port) : Prop := x.timer.isSome = true ↔ x.phase = .recovering

theorem Port.recompute_lawful {x : Port} (h : x.timed) : x.recompute.lawful := by
  refine ⟨x.recompute_live, ?_⟩
  rcases x.recompute_cases with ⟨-, e⟩ | ⟨-, e⟩ <;> rw [e] <;> exact h

theorem Port.report_timed {x : Port} (h : x.timed) (hold now : Nat) (st : ReportedState) : (x.report hold now st).timed := by
  obtain ⟨reported, forced, phase, live, timer, pass⟩ := x
  cases st
  · cases phase <;> simp_all [Port.timed, Port.report, Port.reportLive] <;> split <;> simp_all
  · cases phase <;> simp_all [Port.timed, Port.report, Port.reportDead]

theorem Port.expire_timed (x : Port) : x.expire.timed := by
  obtain ⟨reported, forced, phase, live, timer, pass⟩ := x
  cases phase <;> simp [Port.timed, Port.expire]

theorem Port.reset_lawful : Port.reset.lawful := ⟨rfl, by decide⟩

@[simp] theorem State.portClaim_ports (s : State) (p : Fin 64) (f : Port → Port) :
    (s.portClaim p f).pmon.ports = (s.pmon.setPort p (f (s.port p)).recompute).ports := by
  unfold State.portClaim
  dsimp only
  split <;> simp

/-! ### All ports together -/

def PortMonitor.lawful (m : PortMonitor) : Prop := ∀ p : Fin 64, m.ports[p].lawful

theorem PortMonitor.lawful_congr {m m' : PortMonitor} (h : m.lawful) (hp : m'.ports = m.ports) : m'.lawful := fun p => by
  rw [hp]
  exact h p

theorem PortMonitor.setPort_lawful {m : PortMonitor} (h : m.lawful) {p : Fin 64} {x : Port} (hx : x.lawful) :
    (m.setPort p x).lawful := fun q => by
  by_cases hq : q = p
  · subst hq
    exact (m.setPort_self q x).symm ▸ hx
  · rw [m.setPort_ne x hq]
    exact h q

theorem PortMonitor.lawful_replicate {m : PortMonitor} (h : m.ports = Vector.replicate 64 Port.reset) : m.lawful := fun p => by
  rw [h]
  simpa using Port.reset_lawful

section
variable {s : State} (h : s.pmon.lawful)
include h

/-- A claim that leaves the timer RUNNING exactly in RECOVERING keeps the law. -/
theorem State.portClaim_portsLawful (p : Fin 64) {f : Port → Port} (hf : (s.port p).timed → (f (s.port p)).timed) :
    (s.portClaim p f).pmon.lawful :=
  PortMonitor.lawful_congr (PortMonitor.setPort_lawful h (Port.recompute_lawful (hf (h p).2))) (s.portClaim_ports p f)

theorem State.passTo_portsLawful (v : Visit) (pass : Pass) : (s.passTo v pass).pmon.lawful := by
  unfold State.passTo
  split
  · exact h
  · exact PortMonitor.setPort_lawful h (h v.port)

theorem State.visitPass_portsLawful (v : Visit) : (s.visitPass v).pmon.lawful := by
  rcases s.visitPass_cases v with ⟨-, he⟩ | ⟨place, -, ⟨-, he⟩ | ⟨-, he⟩⟩ <;> rw [he]
  · refine State.passTo_portsLawful ?_ v _
    exact h
  · refine State.passTo_portsLawful ?_ v _
    exact h
  · exact h

theorem portForceWork_portsLawful (ps : List Word) : (portForceWork ps s).1.pmon.lawful := by
  unfold portForceWork
  split
  · exact State.portClaim_portsLawful h _ id
  · exact h

theorem restartWork_portsLawful (ps : List Word) : (restartWork ps s).1.pmon.lawful := by
  have hu : s.restartUnits.pmon.lawful := PortMonitor.lawful_congr h (by simp [State.restartUnits, fours])
  rcases restartWork_cases ps s with ⟨-, he⟩ | ⟨-, -, he⟩ | ⟨-, -, he⟩ <;> rw [he]
  · exact hu
  · exact hu
  · exact PortMonitor.lawful_replicate rfl

end

/-! ### The rows and the step -/

/-- The ports are lawful while the blocks run. -/
def State.portsLawful (s : State) : Prop := s.dev.phase = .running → s.pmon.lawful

theorem State.startClearing_not_running {s : State} (h : s.startClearing.dev.phase = .running) : s.dev.phase = .running := by
  unfold State.startClearing at h
  split at h
  · cases h
  · exact h

@[simp] theorem State.takeRead_ports (s : State) : s.takeRead.pmon.ports = s.pmon.ports := by
  rcases s.takeRead_cases with he | ⟨w, ps, p, q, rest, -, -, -, -, -, -, he⟩ <;> rw [he]
  rfl

section
variable {s : State} (h : s.portsLawful)
include h

theorem State.portsLawful_of_same {t : State} (hp : t.pmon.ports = s.pmon.ports)
    (hr : t.dev.phase = .running → s.dev.phase = .running) : t.portsLawful :=
  fun ht => PortMonitor.lawful_congr (h (hr ht)) hp

theorem runCommand_portsLawful (code : Nat) {body : List Word → State → Reply}
    (hb : ∀ ps, s.pmon.lawful → (body ps s).1.pmon.lawful) (hd : ∀ ps, (body ps s).1.dev = s.dev) :
    (runCommand code body s).portsLawful :=
  runCommand_keeps (P := State.portsLawful) h
    (fun _ _ _ ht => State.portsLawful_of_same ht (by simp) (by simp))
    (fun _ _ => State.portsLawful_of_same h (by simp) (by simp))
    fun ps hr => hb ps (h (by rwa [hd] at hr))

theorem execReportTaken_portsLawful : leadsTo State.portsLawful (execReportTaken s) := by
  unfold execReportTaken
  split
  · exact leadsTo_next.mpr h
  · rename_i r _
    rw [leadsTo_next]
    split
    · rename_i hrun
      simp only [Bool.and_eq_true, State.running, beq_iff_eq] at hrun
      have hpop : (s.setPmon (s.pmon.popReport r)).pmon.lawful :=
        PortMonitor.lawful_congr (h hrun.1) (s.pmon.popReport_ports r)
      have hclaim := State.portClaim_portsLawful hpop r.port fun hx =>
        Port.report_timed hx s.pmon.holdDown s.pmon.now r.state
      dsimp only
      split <;> exact fun _ => hclaim
    · exact h

theorem execHoldDownExpiry_portsLawful (p : Fin 64) : leadsTo State.portsLawful (execHoldDownExpiry p s) := by
  unfold execHoldDownExpiry
  split
  · exact leadsTo_next.mpr h
  · rename_i t _
    dsimp only
    rw [leadsTo_next]
    split
    · split
      · exact fun hr => State.portClaim_portsLawful (s := s.setPmon (s.pmon.advance t)) (h (by simpa using hr)) p
          fun _ => Port.expire_timed _
      · exact h
    · exact h

theorem execVisitClaim_portsLawful (p : Fin 64) : leadsTo State.portsLawful (execVisitClaim p s) := by
  have hvisit : ∀ v, (s.visitPass v).portsLawful := fun v hr => State.visitPass_portsLawful (h (by simpa using hr)) v
  unfold execVisitClaim
  split
  · rw [leadsTo_next]
    split
    · exact hvisit _
    · exact h
  · split
    · exact leadsTo_next.mpr h
    · rw [leadsTo_next]
      split
      · exact hvisit _
      · exact h

/-- A row that touches the ports or the device keeps the law; any other leaves the ports as they are. -/
theorem exec_portsLawful (i : Instr) : leadsTo State.portsLawful (exec i s) := by
  by_cases hp : Part.ports ∈ touches i ∨ Part.dev ∈ touches i
  · cases i <;> simp only [touches, List.mem_cons, List.not_mem_nil, or_false, reduceCtorEq, or_self, or_true] at hp
    case portForce =>
      exact leadsTo_next.mpr (runCommand_portsLawful h _ (fun ps hl => portForceWork_portsLawful hl ps) fun ps =>
        portForceWork_sameBut ps s .dev (by decide))
    case restart =>
      exact leadsTo_next.mpr (runCommand_portsLawful h _ (fun ps hl => restartWork_portsLawful hl ps) fun ps =>
        restartWork_sameBut ps s .dev (by decide))
    case reportTaken => exact execReportTaken_portsLawful h
    case holdDownExpiry p => exact execHoldDownExpiry_portsLawful h p
    case visitClaim p => exact execVisitClaim_portsLawful h p
    case hardwareReset ns =>
      refine leadsTo_next.mpr ?_
      split
      · exact fun hr => nomatch hr
      · exact h
    case supplyInvalid rail => exact leadsTo_next.mpr fun hr => nomatch hr
    case resetRelease =>
      exact leadsTo_next.mpr (State.portsLawful_of_same h (by simp) fun hr =>
        State.startClearing_not_running (s := s.setDev { s.dev with resetLow := false }) hr)
    case supplyValid =>
      exact leadsTo_next.mpr (State.portsLawful_of_same h (by simp) fun hr => State.startClearing_not_running
        (s := s.setDev { s.dev with vddValid := true, vddioValid := true, vddlValid := true }) hr)
    case startupClearingEnd =>
      refine leadsTo_next.mpr ?_
      split
      · exact fun _ => PortMonitor.lawful_replicate rfl
      · exact h
  · intro t ht
    have hports : t.pmon.ports = s.pmon.ports := exec_same ht (p := .ports) fun hm => hp (.inl hm)
    have hdev : t.dev = s.dev := exec_same ht (p := .dev) fun hm => hp (.inr hm)
    exact State.portsLawful_of_same h hports fun hr => hdev ▸ hr

theorem State.tick_portsLawful : s.tick.portsLawful :=
  State.portsLawful_of_same h (by simp [State.tick]) (by simp)

end

/-- Settles O55: the step is an idle one, which moves the clock and the lines of claims, or a row's. -/
theorem portLawKept : Obligations.PortLawKept := fun _ _ h hstep =>
  step_keeps (P := State.portsLawful) (fun _ _ h => h) (fun _ h => State.tick_portsLawful h) (fun i _ h => exec_portsLawful h i)
    h hstep

end Sys2Proof.Machine
end

section
/-! PROOFS. The law of the lanes (R90, R97, R102): bounds, the order of a queue, and the one GRANTED entry of the device. -/

namespace Sys2Proof.Machine

-- The proofs are elaborated one after another: each thread counts against the memory in which the text is checked.
set_option Elab.async false

theorem satInc_le (cap n : Nat) : satInc cap n ≤ cap := Nat.min_le_right _ _

/-! ### The order of a queue (R97) -/

theorem allWaiting_iff {q : List Entry} : allWaiting q = true ↔ ∀ e ∈ q, e.status = .waiting := by
  induction q with
  | nil => simp [allWaiting]
  | cons e es ih => simp [allWaiting, ih]

theorem queueInOrder_of_allWaiting {q : List Entry} (h : allWaiting q = true) : queueInOrder q = true := by
  cases q with
  | nil => rfl
  | cons e es =>
    simp only [allWaiting, Bool.and_eq_true, beq_iff_eq] at h
    simp [queueInOrder, h.1, h.2]

theorem queueInOrder_tail {q : List Entry} (h : queueInOrder q = true) : queueInOrder q.tail = true := by
  cases q with
  | nil => rfl
  | cons e es =>
    simp only [queueInOrder] at h
    split at h
    · exact h
    all_goals exact queueInOrder_of_allWaiting h

theorem queueInOrder_concat {q : List Entry} (h : queueInOrder q = true) {e : Entry} (he : e.status = .waiting) :
    queueInOrder (q ++ [e]) = true := by
  have hw : ∀ {es : List Entry}, allWaiting es = true → allWaiting (es ++ [e]) = true := fun hes => by
    rw [allWaiting_iff] at hes ⊢
    simpa [or_imp, forall_and] using ⟨hes, he⟩
  induction q with
  | nil => simp [queueInOrder, he, allWaiting]
  | cons x xs ih =>
    simp only [queueInOrder] at h
    simp only [List.cons_append, queueInOrder]
    cases hx : x.status <;> simp only [hx] at h ⊢
    case done => exact ih h
    all_goals exact hw h

/-- The GRANTED entry of a queue becomes DONE (R123). -/
theorem queueInOrder_finish {q : List Entry} (h : queueInOrder q = true) (r : Result) :
    queueInOrder (q.map fun e => if e.status == .granted then { e with status := .done r } else e) = true := by
  have hw : ∀ {es : List Entry}, allWaiting es = true →
      (es.map fun e => if e.status == .granted then { e with status := .done r } else e) = es := fun hes =>
    (List.map_congr_left fun e he => if_neg (by simp [allWaiting_iff.mp hes e he])).trans (List.map_id' _)
  induction q with
  | nil => rfl
  | cons x xs ih =>
    simp only [queueInOrder] at h
    simp only [List.map_cons, queueInOrder]
    cases hx : x.status <;> simp only [hx] at h
    case done => simpa [hx] using ih h
    case granted =>
      rw [hw h]
      simpa using queueInOrder_of_allWaiting h
    case waiting =>
      rw [hw h]
      simpa [hx] using h

/-- Of a queue without a GRANTED entry the oldest WAITING entry becomes GRANTED (R105). -/
theorem queueInOrder_grantOldest {q : List Entry} (h : queueInOrder q = true)
    (hg : ∀ e ∈ q, e.status ≠ .granted) : queueInOrder (grantOldest q) = true := by
  induction q with
  | nil => rfl
  | cons x xs ih =>
    simp only [queueInOrder] at h
    split at h <;> rename_i hx
    · simpa [grantOldest, queueInOrder, hx] using ih h fun e he => hg e (.tail _ he)
    · exact absurd hx (hg x (.head _))
    · simpa [grantOldest, queueInOrder, hx] using h

/-! ### One lane -/

theorem Lane.hasGranted_iff {l : Lane} : l.hasGranted = true ↔ ∃ e ∈ l.queue, e.status = .granted := by
  simp [Lane.hasGranted]

theorem Lane.hasGranted_congr {l l' : Lane} (h : l'.queue = l.queue) : l'.hasGranted = l.hasGranted := by
  rw [Lane.hasGranted, h, Lane.hasGranted]

theorem Lane.not_hasGranted_of_empty {l : Lane} (h : l.queue = []) : l.hasGranted = false := by
  simp [Lane.hasGranted, h]

/-- No entry of a lane is GRANTED once its result is handed back (R123). -/
theorem Lane.finish_hasGranted (l : Lane) (r : Result) : (l.finish r).hasGranted = false := by
  rw [Bool.eq_false_iff, ne_eq, Lane.hasGranted_iff]
  rintro ⟨e, he, hs⟩
  obtain ⟨x, -, rfl⟩ := List.mem_map.mp he
  split at hs
  · cases hs
  · exact ‹¬_› (by simp [hs])

theorem Lane.reset_lawful : Lane.reset.lawful := by simp [Lane.lawful, Lane.reset, queueInOrder]

section
variable {l : Lane} (h : l.lawful)
include h

/-- A lane whose queue, credits and reports are dropped, with its weight and its counters as they were or 0. -/
theorem Lane.lawful_leaveUp (x : Link) : ({ l.leaveUp with link := x } : Lane).lawful := by
  simp_all [Lane.lawful, Lane.leaveUp, queueInOrder]

theorem Lane.lawful_restart : l.restart.lawful := by
  simp_all [Lane.lawful, Lane.restart, Lane.reset, queueInOrder]

theorem Lane.lawful_enterUp : ({ l with link := .up, held := 0, owed := Config.creditLimit } : Lane).lawful := by
  simp_all [Lane.lawful]

theorem Lane.lawful_startNext : l.startNext.lawful := by
  rcases l.startNext_cases with ⟨-, -, -, e⟩ | ⟨-, -, -, -, e⟩ | e <;> rw [e]
  · simp_all [Lane.lawful]
  all_goals exact h

theorem Lane.lawful_spend : l.spend.lawful := by
  obtain ⟨hq, hlen, hheld, hrest⟩ := h
  exact ⟨hq, hlen, (Nat.sub_le _ _).trans hheld, hrest⟩

theorem Lane.lawful_owe : l.owe.lawful := by
  obtain ⟨hq, hlen, hheld, -, hrest⟩ := h
  exact ⟨hq, hlen, hheld, satInc_le _ _, hrest⟩

theorem Lane.lawful_enqueue (hroom : l.queue.length < Config.queueLimit) (tag : Byte) (ask : Option Ask) :
    (l.enqueue tag ask).lawful := by
  obtain ⟨hq, -, hheld, howed, hreports, hw1, hw8, -, hrest⟩ := h
  exact ⟨queueInOrder_concat hq rfl, by simpa [Lane.enqueue] using hroom, hheld, howed, hreports, hw1, hw8, satInc_le _ _, hrest⟩

theorem Lane.lawful_overrun : l.overrun.lawful := by
  obtain ⟨hq, hlen, hheld, howed, hreports, hw1, hw8, hreq, hres, -, hrest⟩ := h
  exact ⟨hq, hlen, hheld, howed, hreports, hw1, hw8, hreq, hres, satInc_le _ _, hrest⟩

theorem Lane.lawful_countMalformed : l.countMalformed.lawful := by
  obtain ⟨hq, hlen, hheld, howed, hreports, hw1, hw8, hreq, hres, hover, hcheck, -⟩ := h
  exact ⟨hq, hlen, hheld, howed, hreports, hw1, hw8, hreq, hres, hover, hcheck, satInc_le _ _⟩

theorem Lane.lawful_countCheck (n : Nat) : ({ l with checkErrors := satInc Config.count16 n } : Lane).lawful := by
  obtain ⟨hq, hlen, hheld, howed, hreports, hw1, hw8, hreq, hres, hover, -, hrest⟩ := h
  exact ⟨hq, hlen, hheld, howed, hreports, hw1, hw8, hreq, hres, hover, satInc_le _ _, hrest⟩

theorem Lane.lawful_reports {n : Nat} (hn : n ≤ Config.creditLimit) : ({ l with reportsPending := n } : Lane).lawful := by
  obtain ⟨hq, hlen, hheld, howed, -, hrest⟩ := h
  exact ⟨hq, hlen, hheld, howed, hn, hrest⟩

theorem Lane.lawful_reportTaken : l.reportTaken.lawful := by
  obtain ⟨-, -, -, -, hreports, -⟩ := id h
  exact Lane.lawful_startNext (Lane.lawful_owe (Lane.lawful_reports h ((Nat.sub_le _ 1).trans hreports)))

theorem Lane.lawful_creditSent {n : Nat} :
    ({ l with sending := none, held := min n Config.creditLimit } : Lane).lawful := by
  obtain ⟨hq, hlen, -, hrest⟩ := h
  exact ⟨hq, hlen, Nat.min_le_right _ _, hrest⟩

theorem Lane.lawful_resultSent (sent : Nat) :
    ({ l with sending := none, queue := l.queue.tail, resultsSent := satInc Config.count32 sent,
              held := satInc Config.creditLimit l.held } : Lane).lawful := by
  obtain ⟨hq, hlen, -, howed, hreports, hw1, hw8, hreq, -, hrest⟩ := h
  exact ⟨queueInOrder_tail hq, by simp only [List.length_tail]; omega, satInc_le _ _, howed, hreports, hw1, hw8, hreq,
    satInc_le _ _, hrest⟩

theorem Lane.lawful_finish (r : Result) : (l.finish r).lawful := by
  obtain ⟨hq, hlen, hrest⟩ := h
  exact ⟨queueInOrder_finish hq r, by simpa [Lane.finish] using hlen, hrest⟩

theorem Lane.lawful_grantOldest (hg : l.hasGranted = false) : ({ l with queue := grantOldest l.queue } : Lane).lawful := by
  obtain ⟨hq, hlen, hrest⟩ := h
  refine ⟨queueInOrder_grantOldest hq fun e he hs => ?_, by simpa [grantOldest_length] using hlen, hrest⟩
  rw [Lane.hasGranted_iff.mpr ⟨e, he, hs⟩] at hg
  cases hg

theorem Lane.lawful_clearCounters : l.clearCounters.lawful := by
  simp_all [Lane.lawful, Lane.clearCounters]

theorem Lane.lawful_weight {w : Nat} (hw : 1 ≤ w ∧ w ≤ 8) : ({ l with weight := w } : Lane).lawful := by
  obtain ⟨hq, hlen, hheld, howed, hreports, -, -, hrest⟩ := h
  exact ⟨hq, hlen, hheld, howed, hreports, hw.1, hw.2, hrest⟩

end

/-! ### The lanes of the device -/

/-- The law reads the lanes and the lookup in flight. -/
theorem State.lanesLawful_congr {s t : State} (h : s.lanesLawful) (hl : t.lanes = s.lanes)
    (hs : t.su.lookup = s.su.lookup) : t.lanesLawful := by
  obtain ⟨hlanes, hgrant⟩ := h
  refine ⟨fun n => State.lane_congr hl n ▸ hlanes n, fun n hn => ?_⟩
  rw [State.lane_congr hl] at hn
  exact hs ▸ hgrant n hn

/-- With no entry GRANTED it matters not which lookup is in flight. -/
theorem State.lanesLawful_of_none {s : State} (h : ∀ n, (s.lane n).lawful) (hg : ∀ n, (s.lane n).hasGranted = false) :
    s.lanesLawful :=
  ⟨h, fun n hn => by rw [hg n] at hn; cases hn⟩

section
variable {s : State} (h : s.lanesLawful)
include h

/-- Only the lane whose lookup is in flight has an entry GRANTED. -/
theorem State.not_hasGranted {n : Fin 4} (hs : ∀ k, s.su.lookup = some k → k.source ≠ .lane n) :
    (s.lane n).hasGranted = false := by
  by_contra hg
  obtain ⟨k, hk, hn⟩ := h.2 n (by simpa using hg)
  exact hs k hk hn

/-- A change of one lane that keeps its law and grants no entry of it. -/
theorem State.updLane_lanesLawful {n : Fin 4} {f : Lane → Lane} (hf : (f (s.lane n)).lawful)
    (hg : (f (s.lane n)).hasGranted = true → (s.lane n).hasGranted = true) : (s.updLane n f).lanesLawful := by
  obtain ⟨hlanes, hgrant⟩ := h
  refine ⟨fun m => ?_, fun m hm => ?_⟩
  · rw [State.updLane_lane]
    split
    · exact hf
    · exact hlanes m
  · by_cases hmn : m = n
    · subst hmn
      rw [State.updLane_lane_self] at hm
      exact hgrant m (hg hm)
    · rw [State.updLane_lane_ne s f hmn] at hm
      exact hgrant m hm

/-- A change of one lane that keeps its law and its queue. -/
theorem State.updLane_lanesLawful_of_queue {n : Fin 4} {f : Lane → Lane} (hf : (f (s.lane n)).lawful)
    (hq : (f (s.lane n)).queue = (s.lane n).queue) : (s.updLane n f).lanesLawful :=
  State.updLane_lanesLawful h hf fun hg => by rwa [Lane.hasGranted_congr hq] at hg

theorem State.leaveUp_lanesLawful (n : Fin 4) (x : Link) : (s.leaveUp n x).lanesLawful :=
  State.lanesLawful_congr (s := s.updLane n fun l => { l.leaveUp with link := x })
    (State.updLane_lanesLawful h (Lane.lawful_leaveUp (h.1 n) x) fun hg => by
      rw [Lane.not_hasGranted_of_empty (by rfl)] at hg; cases hg) rfl rfl

theorem State.detect_lanesLawful (n : Fin 4) : (s.detect n).lanesLawful := by
  refine State.updLane_lanesLawful_of_queue h ?_ ?_
  · split <;> exact h.1 n
  · split <;> rfl

theorem State.takeLookup_lanesLawful (n : Fin 4) (tag : Byte) (ask : Option Ask) : (s.takeLookup n tag ask).lanesLawful := by
  unfold State.takeLookup
  split
  · rename_i hroom
    refine State.updLane_lanesLawful h (Lane.lawful_enqueue (h.1 n) hroom tag ask) fun hg => ?_
    simpa [Lane.hasGranted, Lane.enqueue] using hg
  · exact State.lanesLawful_congr (State.updLane_lanesLawful_of_queue h (Lane.lawful_overrun (h.1 n)) rfl) (by simp) (by simp)

/-! ### The lookup in flight -/

/-- The hand-back of the lookup in flight leaves no entry GRANTED (R123). -/
theorem State.handBack_lanesLawful {source : Source} (hs : ∀ k, s.su.lookup = some k → k.source = source) (bucket : Nat)
    (r : Result) : (s.handBack source bucket r).lanesLawful := by
  have hother : ∀ n, source ≠ .lane n → (s.lane n).hasGranted = false := fun n hn =>
    State.not_hasGranted h fun k hk he => hn (hs k hk ▸ he)
  obtain ⟨hlanes, -⟩ := h
  unfold State.handBack
  cases source with
  | lane n =>
    dsimp only
    refine State.lanesLawful_of_none (fun m => ?_) fun m => ?_ <;> rw [State.updLane_lane] <;> split
    · exact Lane.lawful_startNext (Lane.lawful_finish (hlanes n) r)
    · exact hlanes m
    · rw [Lane.hasGranted_congr (Lane.startNext_queue _), Lane.finish_hasGranted]
    · exact hother m fun he => ‹¬_› (Source.lane.inj he).symm
  | probe =>
    have hnone : ∀ n, (s.lane n).hasGranted = false := fun n => hother n (by simp)
    dsimp only
    split <;> exact State.lanesLawful_of_none hlanes hnone

theorem State.grantLane_lanesLawful (hfree : s.su.lookup = none) (n : Fin 4) (allowance : Nat) :
    (s.grantLane n allowance).lanesLawful := by
  have hnone : ∀ m, (s.lane m).hasGranted = false := fun m => State.not_hasGranted h fun k hk => by
    rw [hfree] at hk; cases hk
  have hlaw : ∀ m, ((s.updLane n fun l => { l with queue := grantOldest l.queue }).lane m).lawful := fun m => by
    rw [State.updLane_lane]
    split
    · exact Lane.lawful_grantOldest (h.1 n) (hnone n)
    · exact h.1 m
  have honly : ∀ m, ((s.updLane n fun l => { l with queue := grantOldest l.queue }).lane m).hasGranted = true → m = n :=
    fun m hm => by
      by_contra hne
      rw [State.updLane_lane_ne s _ hne, hnone] at hm
      cases hm
  unfold State.grantLane
  split
  · exact h
  · rename_i e _
    dsimp only
    split
    · unfold State.handBack
      dsimp only
      refine State.lanesLawful_of_none (fun m => ?_) fun m => ?_ <;> rw [State.updLane_lane] <;> split
      · exact Lane.lawful_startNext (Lane.lawful_finish (hlaw n) _)
      · exact hlaw m
      · rw [Lane.hasGranted_congr (Lane.startNext_queue _), Lane.finish_hasGranted]
      · by_contra hg
        exact ‹¬_› (honly m (Bool.eq_true_of_not_eq_false hg))
    · exact ⟨hlaw, fun m hm => ⟨_, rfl, congrArg Source.lane (honly m hm).symm⟩⟩

theorem State.lookupClaim_lanesLawful {k : Lookup} (hk : s.su.lookup = some k) : (s.lookupClaim k).lanesLawful := by
  have hsource : ∀ j, s.su.lookup = some j → j.source = k.source := fun j hj => by
    rw [hk] at hj; cases hj; rfl
  unfold State.lookupClaim
  dsimp only
  split
  · exact State.handBack_lanesLawful h hsource _ _
  · split
    · exact State.handBack_lanesLawful h hsource _ _
    · rename_i r _
      have hmarked : (s.setRs (s.rs.markMatch k.ask.mark r)).lanesLawful := h
      split
      · exact State.handBack_lanesLawful hmarked hsource _ _
      · exact State.handBack_lanesLawful hmarked hsource _ _
      · refine ⟨h.1, fun n hn => ⟨_, rfl, ?_⟩⟩
        obtain ⟨j, hj, hn⟩ := h.2 n hn
        exact (hsource j hj).symm.trans hn

theorem State.resolution_lanesLawful {source : Source} {tag : Option Byte} {ask : Ask} {stage : Stage}
    (hk : s.su.lookup = some ⟨source, tag, ask, stage⟩) (len : Nat) (target : Target) (g : BitVec 16) (miss : DropVerdict) :
    (s.resolution source ask len target g miss).lanesLawful := by
  have hsource : ∀ j, s.su.lookup = some j → j.source = source := fun j hj => by
    rw [hk] at hj; cases hj; rfl
  rcases s.resolution_cases source ask len target g miss with ⟨-, he⟩ | ⟨-, he⟩ <;> rw [he]
  · refine State.handBack_lanesLawful ?_ ?_ _ _
    · exact h
    · exact hsource
  · exact h

/-! ### The work of the commands -/

theorem laneEnableWork_lanesLawful (ps : List Word) : (laneEnableWork ps s).1.lanesLawful := by
  unfold laneEnableWork
  split
  · exact h
  · rename_i n _
    split
    · refine State.detect_lanesLawful (State.updLane_lanesLawful_of_queue h ?_ rfl) n
      exact h.1 n
    · exact h

theorem laneDisableWork_lanesLawful (ps : List Word) : (laneDisableWork ps s).1.lanesLawful := by
  unfold laneDisableWork
  split
  · exact h
  · rename_i n _
    split
    · exact State.leaveUp_lanesLawful h n _
    · exact State.updLane_lanesLawful_of_queue h (h.1 n) rfl
    · exact State.updLane_lanesLawful_of_queue h (h.1 n) rfl
    · exact h

theorem laneReadWork_lanesLawful (ps : List Word) : (laneReadWork ps s).1.lanesLawful := by
  unfold laneReadWork
  split
  · exact h
  · rename_i n _
    rw [answerOk_fst]
    split
    · exact State.updLane_lanesLawful_of_queue h (Lane.lawful_clearCounters (h.1 n)) rfl
    · exact h

theorem laneWeightWork_lanesLawful (ps : List Word) : (laneWeightWork ps s).1.lanesLawful := by
  unfold laneWeightWork
  dsimp only
  split
  · exact h
  · rename_i n _
    split
    · exact State.updLane_lanesLawful_of_queue h (Lane.lawful_weight (h.1 n) ‹_›) rfl
    · exact h

theorem probeWork_lanesLawful (ps : List Word) : (probeWork ps s).1.lanesLawful := by
  unfold probeWork
  split <;> exact h

theorem State.restartUnits_lanesLawful : s.restartUnits.lanesLawful := by
  have hlane : ∀ n, s.restartUnits.lane n = (s.lane n).restart := fun n => by
    simp [State.restartUnits, State.lane]
  refine State.lanesLawful_of_none (fun n => hlane n ▸ Lane.lawful_restart (h.1 n)) fun n => ?_
  rw [hlane, Lane.not_hasGranted_of_empty rfl]

theorem restartWork_lanesLawful (ps : List Word) : (restartWork ps s).1.lanesLawful := by
  rcases restartWork_cases ps s with ⟨-, he⟩ | ⟨-, -, he⟩ | ⟨-, -, he⟩ <;> rw [he] <;>
    exact State.restartUnits_lanesLawful h

theorem runCommand_lanesLawful (code : Nat) {body : List Word → State → Reply} (hb : ∀ ps, (body ps s).1.lanesLawful) :
    leadsTo State.lanesLawful (.next (runCommand code body s)) :=
  leadsTo_next.mpr <| runCommand_keeps (P := State.lanesLawful) h
    (fun _ _ _ ht => State.lanesLawful_congr ht (by simp) (by simp)) (fun _ _ => h) hb

/-! ### The rows -/

theorem execSignalDetected_lanesLawful (n : Fin 4) : leadsTo State.lanesLawful (execSignalDetected n s) := by
  have hs : (s.updLane n fun l => { l with signal := true }).lanesLawful := State.updLane_lanesLawful_of_queue h (h.1 n) rfl
  unfold execSignalDetected
  dsimp only
  rw [leadsTo_next]
  split
  · exact State.detect_lanesLawful hs n
  · exact hs

theorem execAlignmentComplete_lanesLawful (n : Fin 4) : leadsTo State.lanesLawful (execAlignmentComplete n s) := by
  unfold execAlignmentComplete
  rw [leadsTo_next]
  split
  · exact State.updLane_lanesLawful_of_queue h (Lane.lawful_startNext (Lane.lawful_enterUp (h.1 n))) (Lane.startNext_queue _)
  · exact h

theorem execSignalLost_lanesLawful (n : Fin 4) (cause : LossCause) : leadsTo State.lanesLawful (execSignalLost n cause s) := by
  have hs : (s.updLane n fun l => { l with signal := l.signal && cause == .alignment }).lanesLawful :=
    State.updLane_lanesLawful_of_queue h (h.1 n) rfl
  unfold execSignalLost
  dsimp only
  split
  · exact leadsTo_next.mpr hs
  · split <;> rw [leadsTo_next]
    · exact State.detect_lanesLawful
        (State.lanesLawful_congr (State.leaveUp_lanesLawful hs n .down) (by simp) (by simp)) n
    · split
      · exact State.updLane_lanesLawful_of_queue hs (hs.1 n) rfl
      · exact hs
    · exact hs
    · exact hs

theorem State.spend_lanesLawful (n : Fin 4) : (s.updLane n Lane.spend).lanesLawful :=
  State.updLane_lanesLawful_of_queue h (Lane.lawful_spend (h.1 n)) rfl

theorem execLookupN_lanesLawful (n : Fin 4) (tag : Byte) (d : Fin 16) (m : Bool) (hash : BitVec 16) (k : BitVec 32) :
    leadsTo State.lanesLawful (execLookupN n tag d m hash k s) := by
  unfold execLookupN
  rw [leadsTo_next]
  split
  · exact State.takeLookup_lanesLawful (State.spend_lanesLawful h n) n tag _
  · exact h

theorem execLookupW_lanesLawful (n : Fin 4) (tag : Byte) (d : Fin 16) (m : Bool) (hash : BitVec 16) (k : BitVec 128) :
    leadsTo State.lanesLawful (execLookupW n tag d m hash k s) := by
  unfold execLookupW
  rw [leadsTo_next]
  split
  · exact State.takeLookup_lanesLawful (State.spend_lanesLawful h n) n tag _
  · exact h

theorem execPort_lanesLawful (n : Fin 4) (p : Fin 64) (st : ReportedState) :
    leadsTo State.lanesLawful (execPort n p st s) := by
  have hspend := State.spend_lanesLawful h n
  unfold execPort
  dsimp only
  rw [leadsTo_next]
  split
  · exact h
  · split
    · exact State.lanesLawful_congr
        (State.updLane_lanesLawful_of_queue hspend (Lane.lawful_overrun (hspend.1 n)) rfl) (by simp) (by simp)
    · rename_i hroom
      have hpending : ((s.updLane n Lane.spend).updLane n fun l =>
          { l with reportsPending := l.reportsPending + 1 }).lanesLawful :=
        State.updLane_lanesLawful_of_queue hspend (Lane.lawful_reports (hspend.1 n) (by
          rw [State.updLane_lane_self]
          exact Nat.not_le.mp hroom)) rfl
      split <;> exact hpending

theorem execCheckFailure_lanesLawful (n : Fin 4) (ws : List Word) :
    leadsTo State.lanesLawful (execCheckFailure n ws s) := by
  unfold execCheckFailure
  rw [leadsTo_next]
  split
  · refine State.lanesLawful_congr (State.updLane_lanesLawful_of_queue h (n := n) ?_ ?_) (State.post_lanes _ _) (by simp)
    · exact Lane.lawful_startNext (Lane.lawful_owe (Lane.lawful_countCheck (Lane.lawful_spend (h.1 n)) _))
    · exact Lane.startNext_queue _
  · exact h

theorem execMalformedMessage_lanesLawful (n : Fin 4) (ws : List Word) :
    leadsTo State.lanesLawful (execMalformedMessage n ws s) := by
  have hcount := Lane.lawful_countMalformed (Lane.lawful_spend (h.1 n))
  unfold execMalformedMessage
  rw [leadsTo_next]
  split
  · exact h
  · split
    · exact State.takeLookup_lanesLawful (State.updLane_lanesLawful_of_queue h hcount rfl) n _ _
    · exact State.updLane_lanesLawful_of_queue h (Lane.lawful_startNext (Lane.lawful_owe hcount)) (Lane.startNext_queue _)

theorem execCreditSent_lanesLawful (n : Fin 4) : leadsTo State.lanesLawful (execCreditSent n s) := by
  unfold execCreditSent
  split
  · rw [leadsTo_next]
    split
    · exact State.updLane_lanesLawful_of_queue h (Lane.lawful_startNext (Lane.lawful_creditSent (h.1 n))) (Lane.startNext_queue _)
    · exact h
  · exact leadsTo_next.mpr h

theorem execResultSent_lanesLawful (n : Fin 4) : leadsTo State.lanesLawful (execResultSent n s) := by
  unfold execResultSent
  split
  · rw [leadsTo_next]
    split
    · refine State.updLane_lanesLawful h (Lane.lawful_startNext (Lane.lawful_resultSent (h.1 n) _)) fun hg => ?_
      rw [Lane.hasGranted_congr (Lane.startNext_queue _), Lane.hasGranted_iff] at hg
      obtain ⟨e, he, hs⟩ := hg
      exact Lane.hasGranted_iff.mpr ⟨e, List.mem_of_mem_tail he, hs⟩
    · exact h
  · exact leadsTo_next.mpr h

theorem execReportTaken_lanesLawful : leadsTo State.lanesLawful (execReportTaken s) := by
  unfold execReportTaken
  split
  · exact leadsTo_next.mpr h
  · rename_i r _
    rw [leadsTo_next]
    split
    · have hclaim : ((s.setPmon (s.pmon.popReport r)).portClaim r.port
          (Port.report s.pmon.holdDown s.pmon.now r.state)).lanesLawful := State.lanesLawful_congr h (by simp) (by simp)
      dsimp only
      split
      · exact State.updLane_lanesLawful_of_queue hclaim (Lane.lawful_reportTaken (hclaim.1 _)) (Lane.startNext_queue _)
      · exact hclaim
    · exact h

theorem execGrant_lanesLawful : leadsTo State.lanesLawful (execGrant s) := by
  unfold execGrant
  rw [leadsTo_next]
  split
  · exact h
  · rename_i hfree
    simp only [Bool.or_eq_true, not_or, Option.isSome_iff_ne_none, ne_eq, Decidable.not_not] at hfree
    obtain ⟨-, hfree⟩ := hfree
    split
    · refine State.lanesLawful_of_none h.1 fun n => ?_
      exact State.not_hasGranted h fun k hk => by rw [hfree] at hk; cases hk
    · split
      · exact h
      · exact State.grantLane_lanesLawful h hfree _ _

theorem execLookupClaim_lanesLawful : leadsTo State.lanesLawful (execLookupClaim s) := by
  have hpassed : (s.setRs { s.rs with fairness := s.rs.fairness + 1 }).lanesLawful := h
  unfold execLookupClaim
  (repeat' split) <;> rw [leadsTo_next]
  · exact h
  · exact State.lookupClaim_lanesLawful hpassed ‹_›
  · exact State.lookupClaim_lanesLawful h ‹_›
  · exact h

theorem execResolutionClaim_lanesLawful : leadsTo State.lanesLawful (execResolutionClaim s) := by
  unfold execResolutionClaim
  split
  · rw [leadsTo_next]
    (repeat' split)
    · exact h
    · exact State.resolution_lanesLawful h ‹_› _ _ _ _
    · exact h
  · rw [leadsTo_next]
    split <;> exact h

theorem State.takeReset_lanesLawful : s.takeReset.lanesLawful := by
  have hlane : ∀ n, s.takeReset.lane n = { (s.lane n).leaveUp with link := .disabled } := fun n => by
    simp [State.takeReset, State.abandonWork, State.lane]
  refine State.lanesLawful_of_none (fun n => hlane n ▸ Lane.lawful_leaveUp (h.1 n) _) fun n => ?_
  rw [hlane, Lane.not_hasGranted_of_empty rfl]

theorem execStartupClearingEnd_lanesLawful : leadsTo State.lanesLawful (execStartupClearingEnd s) := by
  unfold execStartupClearingEnd
  rw [leadsTo_next]
  split
  · have hlane : ∀ n, s.cleared.lane n = { Lane.reset with signal := (s.lane n).signal } := fun n => by
      simp [State.cleared, State.lane]
    refine State.lanesLawful_of_none (fun n => hlane n ▸ Lane.reset_lawful) fun n => ?_
    rw [hlane, Lane.not_hasGranted_of_empty rfl]
  · exact h

/-- A row that touches the lanes or the SU keeps the law; any other leaves both as they are. -/
theorem exec_lanesLawful (i : Instr) : leadsTo State.lanesLawful (exec i s) := by
  by_cases hp : Part.lanes ∈ touches i ∨ Part.su ∈ touches i
  · cases i <;> simp only [touches, List.mem_cons, List.not_mem_nil, or_false, reduceCtorEq, or_self, or_true] at hp
    case laneEnable => exact runCommand_lanesLawful h _ (laneEnableWork_lanesLawful h)
    case laneDisable => exact runCommand_lanesLawful h _ (laneDisableWork_lanesLawful h)
    case laneRead => exact runCommand_lanesLawful h _ (laneReadWork_lanesLawful h)
    case laneWeight => exact runCommand_lanesLawful h _ (laneWeightWork_lanesLawful h)
    case probe => exact runCommand_lanesLawful h _ (probeWork_lanesLawful h)
    case restart => exact runCommand_lanesLawful h _ (restartWork_lanesLawful h)
    case signalDetected n => exact execSignalDetected_lanesLawful h n
    case alignmentComplete n => exact execAlignmentComplete_lanesLawful h n
    case signalLost n cause => exact execSignalLost_lanesLawful h n cause
    case lookupN n tag d m hash k => exact execLookupN_lanesLawful h n tag d m hash k
    case lookupW n tag d m hash k => exact execLookupW_lanesLawful h n tag d m hash k
    case port n p st => exact execPort_lanesLawful h n p st
    case checkFailure n ws => exact execCheckFailure_lanesLawful h n ws
    case malformedMessage n ws => exact execMalformedMessage_lanesLawful h n ws
    case creditSent n => exact execCreditSent_lanesLawful h n
    case resultSent n => exact execResultSent_lanesLawful h n
    case reportTaken => exact execReportTaken_lanesLawful h
    case grant => exact execGrant_lanesLawful h
    case lookupClaim => exact execLookupClaim_lanesLawful h
    case resolutionClaim => exact execResolutionClaim_lanesLawful h
    case hardwareReset ns =>
      refine leadsTo_next.mpr ?_
      split
      · exact State.takeReset_lanesLawful (s := s.setDev { s.dev with resetLow := true }) h
      · exact h
    case supplyInvalid rail => exact leadsTo_next.mpr (State.takeReset_lanesLawful (s := s.setDev _) h)
    case startupClearingEnd => exact execStartupClearingEnd_lanesLawful h
  · intro t ht
    have hlanes : t.lanes = s.lanes := exec_same ht (p := .lanes) fun hm => hp (.inl hm)
    have hsu : t.su = s.su := exec_same ht (p := .su) fun hm => hp (.inr hm)
    exact State.lanesLawful_congr h hlanes (by rw [hsu])

end

/-- Settles O56: an idle step leaves the lanes and the SU alone; each row that does not keeps the law. -/
theorem laneLawKept : Obligations.LaneLawKept := fun _ _ h hstep =>
  step_keeps (P := State.lanesLawful) (fun _ _ h => h) (fun s h => State.lanesLawful_congr h s.tick_lanes (by simp))
    (fun i _ h => exec_lanesLawful h i) h hstep

end Sys2Proof.Machine
end

section
/-! PROOFS. The law of attention fails in a state that no run reaches: the CU holds a JOB CANCEL, and stands at a progress that
only RESTART's row gives. -/

namespace Sys2Proof.Machine

-- The proofs are elaborated one after another: each thread counts against the memory in which the text is checked.
set_option Elab.async false

/-- A RUNNING SURVEY, and a JOB CANCEL of it at RESTART's progress: the row takes place, and the postings are dropped (R183). -/
def cancelAmidRestart : State :=
  { State.reset with
    cu := .busy [0x71000001#32, 0#32] .restartLeft
    je := { JobEngine.reset with
      slots := JobEngine.reset.slots.set 0 (.running ⟨.survey ⟨none, none, none, none, none⟩ .count, none, 0, 0, 0, .none, none⟩) }
    pending := [.jobCancel] }

theorem cancelAmidRestart_attentionLawful : cancelAmidRestart.attentionLawful := by
  have hslots : ∀ n, ∀ j, cancelAmidRestart.slot n ≠ .ended j := by
    intro n j
    fin_cases n <;> simp [cancelAmidRestart, State.slot, JobEngine.reset]
  exact ⟨.nil, fun n j h => absurd h (hslots n j), fun n k o v m a h => by cases h⟩

/-- The slot is ENDED, and its JOB posting dropped. -/
theorem step_cancelAmidRestart : ∃ t j, step cancelAmidRestart = .next t ∧ t.slot 0 = .ended j ∧ t.au.list = [] := by
  refine ⟨_, _, rfl, rfl, rfl⟩

/-- Refutes O58: `cancelAmidRestart` is lawful, and its step ends the slot while the list stays empty. -/
theorem not_attentionLawKept : ¬ Obligations.AttentionLawKept := by
  intro hkept
  obtain ⟨t, j, hstep, hslot, hlist⟩ := step_cancelAmidRestart
  obtain ⟨-, hended, -⟩ := hkept _ t cancelAmidRestart_attentionLawful hstep
  obtain ⟨r, hr, -⟩ := hended 0 j hslot
  rw [hlist] at hr
  cases hr

end Sys2Proof.Machine
end

section
/-! PROOFS. The rows of the host commands as one: each runs its command's work under its code. -/

namespace Sys2Proof.Machine

-- The proofs are elaborated one after another: each thread counts against the memory in which the text is checked.
set_option Elab.async false

/-- The work of the command of each row. -/
def hostWork : Instr → List Word → State → Reply
  | .domainSet => domainSetWork
  | .domainRead => domainReadWork
  | .routeAdd => routeAddWork
  | .routeChange => routeChangeWork
  | .routeDrop => routeDropWork
  | .routeRead => routeReadWork
  | .routeFind => routeFindWork
  | .exitCreate => exitCreateWork
  | .exitChange => exitChangeWork
  | .exitEnable => exitEnableWork
  | .exitDisable => exitDisableWork
  | .exitDelete => exitDeleteWork
  | .exitRead => exitReadWork
  | .setCreate => setCreateWork
  | .setChange => setChangeWork
  | .setDelete => setDeleteWork
  | .setRead => setReadWork
  | .memberAdd => memberAddWork
  | .memberRemove => memberRemoveWork
  | .memberWeight => memberWeightWork
  | .setRefill => setRefillWork
  | .mapRead => mapReadWork
  | .portForce => portForceWork
  | .portRead => portReadWork
  | .laneEnable => laneEnableWork
  | .laneDisable => laneDisableWork
  | .laneRead => laneReadWork
  | .laneWeight => laneWeightWork
  | .probe => probeWork
  | .jobStart => jobStartWork
  | .jobCancel => jobCancelWork
  | .jobRead => jobReadWork
  | .collect => collectWork
  | .attentionMask => attentionMaskWork
  | .identify => identifyWork
  | .restart => restartWork
  | .setParameters => setParametersWork
  | .readParameters => readParametersWork
  | .readSpace => readSpaceWork
  | _ => fun _ s => refuse s .badArg

/-- The row of a host command runs its work under its code. -/
theorem exec_host {c : Instr} {code : Nat} (h : hostCode c = some code) (s : State) :
    exec c s = .next (runCommand code (hostWork c) s) := by
  cases c <;> simp only [hostCode, Option.some.injEq, reduceCtorEq] at h <;> subst h <;> rfl

/-- What a row with a part has: a host command, or one of the rows besides. -/
theorem exec_host_next {c : Instr} {code : Nat} (h : hostCode c = some code) {P : State → Prop} {s : State}
    (hr : P (runCommand code (hostWork c) s)) : leadsTo P (exec c s) := by
  rw [exec_host h]
  exact leadsTo_next.mpr hr

/-! ### The step of a host command from its work -/

section
variable {c : Instr} {code : Nat} {ps : List Word} {s X : State} {p : Progress} {r : ResultCode} {ws : List Word}
  (hc : hostCode c = some code)
include hc

/-- The work gives a state and a progress that does not wait. -/
theorem exec_progress (hw : s.works code ps) (hb : hostWork c ps s = (X, p)) (hcu : X.cu = s.cu)
    (hp : p.waits = false := by rfl) : exec c s = .next (X.withProgress p) := by
  rw [exec_host hc, runCommand_eq hw hb hcu hp]

/-- The work answers. -/
theorem exec_answered (hw : s.works code ps) (hb : hostWork c ps s = (X, .answered ⟨r, ws⟩)) (hcu : X.cu = s.cu) :
    exec c s = .next (X.answered r ws) := exec_progress hc hw hb hcu

/-- The work refuses. -/
theorem exec_refused (hw : s.works code ps) (hb : hostWork c ps s = refuse s r) : exec c s = .next (s.answered r []) :=
  exec_answered hc hw hb rfl

/-- The work refuses by a check that it makes before it claims any block (R171). -/
theorem exec_checked (hh : s.holds code ps) (hb : hostWork c ps s = refuse s r)
    (hr : checkedBeforeClaims code (.answered ⟨r, []⟩) = true) : exec c s = .next (s.answered r []) := by
  rw [exec_host hc, runCommand_checked hh hb hr]

end

end Sys2Proof.Machine
end

section
/-! PROOFS. The agreement of the port and the CU (R164, R170, R171, R172, R175), and the size of a formed answer (R170). -/

namespace Sys2Proof.Machine

-- The proofs are elaborated one after another: each thread counts against the memory in which the text is checked.
set_option Elab.async false

/-! ### The words that the CU holds -/

/-- The words of the command that the CU is BUSY with. -/
def CommandUnit.words? : CommandUnit → Option (List Word)
  | .idle => none
  | .busy ws _ => some ws

@[simp] theorem CommandUnit.words?_idle : CommandUnit.idle.words? = none := rfl
@[simp] theorem CommandUnit.words?_busy (ws : List Word) (p : Progress) : (CommandUnit.busy ws p).words? = some ws := rfl

/-- The law reads of the CU only the words that it holds. -/
theorem State.managementLawful_iff (s : State) : s.managementLawful ↔
    (s.mp.state = .working ↔ s.cu.words? ≠ none) ∧ (∀ ws, s.cu.words? = some ws → s.mp.command = ws) ∧
      (s.mp.state = .answering ↔ s.mp.answer ≠ []) ∧ (s.mp.abortHeld = true → s.mp.state = .working) ∧
      s.mp.state ≠ .starting := by
  unfold State.managementLawful
  cases h : s.cu <;> simp

/-- The port and the CU agree while the blocks run. -/
def State.managed (s : State) : Prop := s.dev.phase = .running → s.managementLawful

theorem State.managed_congr {s t : State} (h : s.managed) (hmp : t.mp = s.mp) (hcu : t.cu.words? = s.cu.words?)
    (hr : t.dev.phase = .running → s.dev.phase = .running) : t.managed := fun ht => by
  have hs := (s.managementLawful_iff).mp (h (hr ht))
  rwa [← hmp, ← hcu, ← t.managementLawful_iff] at hs

section
variable (s : State)

theorem runCommand_words (code : Nat) (body : List Word → State → Reply) :
    (runCommand code body s).cu.words? = s.cu.words? := by
  rcases runCommand_cases code body s with h | ⟨w, ps, p, -, hcu, -, -, ⟨-, h⟩ | ⟨-, -, h⟩⟩
  · rw [h]
  · rw [h, hcu]; rfl
  · rw [h, hcu]; rfl

@[simp] theorem State.settleCancel_words : s.settleCancel.cu.words? = s.cu.words? := by
  unfold State.settleCancel
  split
  · rename_i h; rw [h]; rfl
  · rfl

@[simp] theorem State.handBack_words (c : Source) (b : Nat) (r : Result) :
    (s.handBack c b r).cu.words? = s.cu.words? := by
  unfold State.handBack
  cases c with
  | lane n => rfl
  | probe =>
    dsimp only
    split
    · rename_i h; rw [← State.setSu_cu s { s.su with lookup := none }, h]; rfl
    · rfl

@[simp] theorem State.grantLane_words (n : Fin 4) (a : Nat) : (s.grantLane n a).cu.words? = s.cu.words? := by
  unfold State.grantLane; (repeat' split) <;> simp

@[simp] theorem State.lookupClaim_words (k : Lookup) : (s.lookupClaim k).cu.words? = s.cu.words? := by
  unfold State.lookupClaim; dsimp only; (repeat' split) <;> simp

@[simp] theorem State.resolution_words (c : Source) (k : Ask) (len : Nat) (t : Target) (g : BitVec 16) (d : DropVerdict) :
    (s.resolution c k len t g d).cu.words? = s.cu.words? := by
  rcases s.resolution_cases c k len t g d with ⟨-, h⟩ | ⟨-, h⟩ <;> simp [h]

@[simp] theorem State.finishStep_words (n : Fin 4) (j : Job) : (s.finishStep n j).cu.words? = s.cu.words? := by
  simp [State.finishStep]

@[simp] theorem State.stepMade_words (n : Fin 4) (j : Job) (k : Option Job) :
    (s.stepMade n j k).cu.words? = s.cu.words? := by
  cases k <;> simp [State.stepMade]

@[simp] theorem State.takeRead_words : s.takeRead.cu.words? = s.cu.words? := by
  rcases s.takeRead_cases with he | ⟨w, ps, p, q, rest, hcu, -, -, -, -, -, he⟩ <;> rw [he]
  rw [hcu]; rfl

@[simp] theorem State.progressTo_words (ws : List Word) (p : Progress) : (s.progressTo ws p).cu.words? = some ws := rfl

@[simp] theorem State.lastClaim_words : s.lastClaim.cu.words? = s.cu.words? := by
  unfold State.lastClaim
  (repeat' split) <;> simp_all

/-- The rows that begin, take back or end a command. -/
def movesCommand : Instr → Bool
  | .wordWrite _ | .workPhaseEnd | .hardwareReset _ | .supplyInvalid _ | .startupClearingEnd => true
  | _ => false

/-- RESTART's answer is formed in the place of its progress. -/
theorem execRestartComplete_words : leadsTo (fun t => t.cu.words? = s.cu.words?) (execRestartComplete s) := by
  unfold execRestartComplete
  split
  · rename_i hcu
    rw [leadsTo_next]
    split
    · rw [hcu]; rfl
    · rfl
  · rw [leadsTo_next]

theorem execGrant_words : leadsTo (fun t => t.cu.words? = s.cu.words?) (execGrant s) := by
  unfold execGrant; (repeat' split) <;> simp

theorem execLookupClaim_words : leadsTo (fun t => t.cu.words? = s.cu.words?) (execLookupClaim s) := by
  unfold execLookupClaim; (repeat' split) <;> simp

theorem execResolutionClaim_words : leadsTo (fun t => t.cu.words? = s.cu.words?) (execResolutionClaim s) := by
  unfold execResolutionClaim; (repeat' split) <;> simp

theorem execStepClaim_words : leadsTo (fun t => t.cu.words? = s.cu.words?) (execStepClaim s) := by
  unfold execStepClaim; (repeat' split) <;> simp

theorem execRefillClaim_words : leadsTo (fun t => t.cu.words? = s.cu.words?) (execRefillClaim s) := by
  unfold execRefillClaim; (repeat' split) <;> simp

theorem execPinClaim_words (n : Fin 4) : leadsTo (fun t => t.cu.words? = s.cu.words?) (execPinClaim n s) := by
  unfold execPinClaim; (repeat' split) <;> simp

/-- The rows that touch the CU, besides those of the host commands and those that move a command. -/
theorem touches_cu {i : Instr} (hh : hostCode i = none) (hi : movesCommand i = false) (hp : Part.cu ∈ touches i) :
    i ∈ [.restartComplete, .grant, .lookupClaim, .resolutionClaim, .stepClaim, .refillClaim] ∨ ∃ n, i = .pinClaim n := by
  cases i <;> simp only [touches, List.mem_cons, List.not_mem_nil, or_false, reduceCtorEq, or_self] at hp
  case wordWrite | workPhaseEnd | hardwareReset | supplyInvalid | startupClearingEnd => exact nomatch hi
  case restartComplete | grant | lookupClaim | resolutionClaim | stepClaim | refillClaim => exact .inl (by simp)
  case pinClaim n => exact .inr ⟨n, rfl⟩
  all_goals exact nomatch hh

/-- Every other row leaves the CU with the words it holds. -/
theorem exec_words {i : Instr} (hi : movesCommand i = false) : leadsTo (fun t => t.cu.words? = s.cu.words?) (exec i s) := by
  cases hh : hostCode i with
  | some code => exact exec_host_next hh (runCommand_words s _ _)
  | none =>
    by_cases hp : Part.cu ∈ touches i
    · rcases touches_cu hh hi hp with hp | ⟨n, rfl⟩
      · simp only [List.mem_cons, List.not_mem_nil, or_false] at hp
        rcases hp with rfl | rfl | rfl | rfl | rfl | rfl
        · exact execRestartComplete_words s
        · exact execGrant_words s
        · exact execLookupClaim_words s
        · exact execResolutionClaim_words s
        · exact execStepClaim_words s
        · exact execRefillClaim_words s
      · exact execPinClaim_words s n
    · exact fun t ht => congrArg CommandUnit.words? (exec_same ht hp : t.cu = s.cu)

/-- A row that leaves the port alone neither begins nor ends a command, and a reset touches the port. -/
theorem movesCommand_eq_false {i : Instr} (hp : Part.mp ∉ touches i) : movesCommand i = false := by
  cases i
  case wordWrite | workPhaseEnd | hardwareReset | supplyInvalid | startupClearingEnd => exact absurd List.mem_cons_self hp
  all_goals rfl

end

/-! ### The port's transactions -/

/-- Of a command whose last word comes, the CU is IDLE and no answer stands. -/
theorem State.completeCommand_managed {s : State} (hcu : s.cu.words? = none) (ha : s.mp.answer = [])
    (hh : s.mp.abortHeld = false) (ws : List Word) (counts : List Nat) : (s.completeCommand ws counts).managed := by
  intro _
  rw [State.managementLawful_iff]
  unfold State.completeCommand
  split
  · simp [State.handOver, ha]
  · simp [ManagementPort.answerSelf, Answer.toWords, hcu, hh]

section
variable {s : State} (h : s.managed)
include h

theorem execWordWrite_managed (w : Word) : leadsTo State.managed (execWordWrite w s) := by
  rw [execWordWrite, leadsTo_next]
  cases hd : s.dev.phase <;> dsimp only
  case held => exact h
  case clearing => exact fun hr => by simp [hd] at hr
  case running =>
    obtain ⟨hw, hc, ha, hh, hs⟩ := s.managementLawful_iff.mp (h hd)
    have hfree : s.mp.state ≠ .working → s.mp.state ≠ .answering →
        s.cu.words? = none ∧ s.mp.answer = [] ∧ s.mp.abortHeld = false := fun hnw hna =>
      ⟨by simpa using fun hx => hnw (hw.mpr hx), by simpa using fun hx => hna (ha.mpr hx),
        by simpa using fun hx => hnw (hh hx)⟩
    cases hst : s.mp.state <;> dsimp only
    case ready =>
      obtain ⟨hcu, hans, hab⟩ := hfree (by simp [hst]) (by simp [hst])
      unfold State.takeFirstWord
      dsimp only
      split
      · intro _
        rw [State.managementLawful_iff]
        simp [ManagementPort.answerSelf, Answer.toWords, hcu, hab]
      · split
        · refine State.completeCommand_managed ?_ ?_ ?_ _ _
          exacts [hcu, hans, hab]
        · intro _
          rw [State.managementLawful_iff]
          simp [hcu, hans, hab]
    case collecting =>
      obtain ⟨hcu, hans, hab⟩ := hfree (by simp [hst]) (by simp [hst])
      unfold State.takeParameter
      dsimp only
      split
      · intro _
        rw [State.managementLawful_iff]
        simp [hst, hcu, hans, hab]
      · exact State.completeCommand_managed hcu hans hab _ _
    all_goals exact fun _ => h hd

theorem execWordRead_managed : leadsTo State.managed (execWordRead s) := by
  rw [execWordRead, leadsTo_next]
  cases hd : s.dev.phase <;> dsimp only
  case held => exact h
  case clearing => exact fun hr => by simp [hd] at hr
  case running =>
    split
    · rename_i hst
      obtain ⟨hw, hc, ha, hh, hs⟩ := s.managementLawful_iff.mp (h hd)
      have hcu : s.cu.words? = none := by simpa [hst] using hw
      have hab : s.mp.abortHeld = false := by simpa [hst] using hh
      intro _
      rw [State.managementLawful_iff, State.setMp_mp, State.setMp_cu]
      unfold ManagementPort.readNext
      split
      · exact absurd ‹_› (ha.mp hst)
      · rename_i rest _
        cases rest <;> simp [hcu, hab]
    · exact fun _ => h hd

theorem execAbort_managed : leadsTo State.managed (execAbort s) := by
  rw [execAbort, leadsTo_next]
  cases hd : s.dev.phase <;> dsimp only
  case held | clearing => exact h
  case running =>
    obtain ⟨hw, hc, ha, hh, hs⟩ := s.managementLawful_iff.mp (h hd)
    cases hst : s.mp.state <;> dsimp only
    case collecting | answering | working =>
      intro _
      rw [State.managementLawful_iff]
      simp_all
    all_goals exact h

theorem execWorkPhaseEnd_managed : leadsTo State.managed (execWorkPhaseEnd s) := by
  have hlast : s.lastClaim.managed := State.managed_congr h (by simp) (by simp) (by simp)
  unfold execWorkPhaseEnd
  dsimp only
  rw [leadsTo_next]
  split
  · split
    · intro _
      rw [State.managementLawful_iff]
      unfold ManagementPort.handBack
      split
      · simp
      · rename_i hab
        simpa [Answer.toWords] using hab
    · exact hlast
  · exact h

/-- The rows of the port's transactions, the end of a work phase and the clearing each keep the agreement; a reset ends the
running; any other row leaves the port and the words of the CU alone. -/
theorem exec_managed (i : Instr) : leadsTo State.managed (exec i s) := by
  by_cases hp : Part.mp ∈ touches i
  · cases i <;> simp only [touches, List.mem_cons, List.not_mem_nil, or_false, reduceCtorEq, or_self] at hp
    case wordWrite w => exact execWordWrite_managed h w
    case wordRead => exact execWordRead_managed h
    case abort => exact execAbort_managed h
    case workPhaseEnd => exact execWorkPhaseEnd_managed h
    case hardwareReset ns =>
      refine leadsTo_next.mpr ?_
      split
      · exact fun hr => nomatch hr
      · exact h
    case supplyInvalid rail => exact leadsTo_next.mpr fun hr => nomatch hr
    case resetRelease | supplyValid =>
      refine leadsTo_next.mpr ?_
      unfold State.startClearing
      split
      · exact fun hr => nomatch hr
      · exact h
    case startupClearingEnd =>
      refine leadsTo_next.mpr ?_
      split
      · intro _
        rw [State.managementLawful_iff]
        simp [State.cleared, ManagementPort.reset]
      · exact h
  · intro t ht
    by_cases hd : Part.dev ∈ touches i
    · cases i <;> simp [touches] at hp hd
    · have hmp : t.mp = s.mp := exec_same ht hp
      have hdev : t.dev = s.dev := exec_same ht hd
      exact State.managed_congr h hmp (exec_words s (movesCommand_eq_false hp) t ht) fun hr => hdev ▸ hr

theorem State.tick_managed : s.tick.managed :=
  State.managed_congr h s.tick_mp (by simp [State.tick]) (by simp)

end

/-! ### The size of a formed answer -/

/-- A progress with a formed answer has at most 31 words after the first, and PORT READ's has room for its last word. -/
def Progress.fits : Progress → Prop
  | .answered a => a.words.length ≤ 31
  | .counting _ words _ => words.length ≤ 30
  | _ => True

theorem State.answersFit_iff (s : State) : s.answersFit ↔ ∀ ws p, s.cu = .busy ws p → p.fits := Iff.rfl

theorem State.answersFit_busy {s : State} {ws : List Word} {p : Progress} (hs : s.cu = .busy ws p) : s.answersFit ↔ p.fits := by
  rw [State.answersFit_iff, hs]
  simp

theorem State.answersFit_congr {s t : State} (h : s.answersFit) (hcu : t.cu = s.cu) : t.answersFit := fun ws p hp =>
  h ws p (hcu ▸ hp)

@[simp] theorem State.setCu_answersFit (s : State) (ws : List Word) (p : Progress) :
    (s.setCu (.busy ws p)).answersFit ↔ p.fits := State.answersFit_busy rfl

@[simp] theorem State.progressTo_answersFit (s : State) (ws : List Word) (p : Progress) :
    (s.progressTo ws p).answersFit ↔ p.fits := State.answersFit_busy rfl

theorem pairWords_length (l : List Nat) : (pairWords l).length = (l.length + 1) / 2 := by
  induction l using pairWords.induct with
  | case1 => rfl
  | case2 a => simp [pairWords]
  | case3 a b rest ih =>
    simp only [pairWords, List.length_cons, ih]
    omega

theorem Key.toWords_length (k : Key) : k.toWords.length ≤ 4 := by cases k <;> simp [Key.toWords]

theorem Route.toWords_length (r : Route) : r.toWords.length ≤ 9 := by
  have := r.ident.key.toWords_length
  simp only [Route.toWords, List.length_cons, List.length_append, List.length_nil]
  omega

theorem Result.exitWords_length (r : Result) : r.exitWords.length = 4 := by
  unfold Result.exitWords; dsimp only; split <;> rfl

theorem Record.words_length (left : Nat) (r : Record) : (r.words left).length ≤ 5 := by
  cases r <;> simp [Record.words]

theorem Exit.readWords_length (e : Exit) (live : Bool) (start : Nat) : (e.readWords live start).length ≤ 27 := by
  simp only [Exit.readWords, List.length_append, List.length_cons, List.length_nil, pairWords_length, List.length_take,
    Config.usersPerRead]
  omega

theorem PathSet.mapWords_length (p : PathSet) (start : Nat) : (p.mapWords start).length ≤ 17 := by
  simp only [PathSet.mapWords, List.length_cons, pairWords_length, List.length_map, List.length_take]
  omega

theorem Job.readWords_length (j : Job) (state : Nat) : (j.readWords state).length ≤ 17 := by
  have hcover : ∀ f a, (surveyWords f a).length = 8 := fun f a => by
    unfold surveyWords
    rcases f.cover with _ | ⟨k | k, len⟩ <;> rfl
  have hcursor : ∀ c, (cursorWords c).length = 5 := fun c => by unfold cursorWords; split <;> rfl
  unfold Job.readWords
  cases j.spec <;> simp [Job.countWords, hcover, hcursor]

section
variable (s : State)

@[simp] theorem refuse_fits (c : ResultCode) : (refuse s c).2.fits := Nat.zero_le _

theorem answerOk_fits {ws : List Word} (h : ws.length ≤ 31) : (answerOk s ws).2.fits := h

theorem answerRoute_fits (r : Option Route) : (answerRoute s r).2.fits := by
  cases r with
  | none => exact refuse_fits s _
  | some r => exact answerOk_fits s (r.toWords_length.trans (by decide))

theorem State.withReference_fits {refers : Bool} {work : State → Reply} (hw : ∀ t, (work t).2.fits) :
    (s.withReference refers work).2.fits := by
  rcases s.withReference_cases refers work with ⟨-, he⟩ | ⟨-, -, he⟩ | ⟨-, -, he⟩ <;> rw [he]
  · exact hw _
  · exact hw _
  · trivial

theorem State.withReads_fits {ports : List (Fin 64)} {work : List Bool → State → Reply} (hw : ∀ reads t, (work reads t).2.fits) :
    (s.withReads ports work).2.fits := by
  rcases s.withReads_cases ports work with ⟨-, he⟩ | ⟨-, he⟩ <;> rw [he]
  · exact hw _ _
  · trivial

theorem withIdentity_fits {α : Type} {ps : List Word} {others : Nat} {more : Identity → Option α}
    {work : Identity → α → Reply} (hw : ∀ i a, (work i a).2.fits) : (withIdentity ps others more s work).2.fits := by
  unfold withIdentity
  (repeat' split)
  · exact refuse_fits s _
  · exact refuse_fits s _
  · exact hw _ _
  · exact refuse_fits s _

theorem State.cancelProgress_fits (n : Fin 4) : (s.cancelProgress n).fits := by
  unfold State.cancelProgress
  split
  · show _ ≤ 31
    simp [Job.countWords]
  · trivial

variable (ps : List Word)

theorem domainSetWork_fits : (domainSetWork ps s).2.fits := by
  unfold domainSetWork; dsimp only; split <;> exact Nat.zero_le _
theorem domainReadWork_fits : (domainReadWork ps s).2.fits := by
  unfold domainReadWork; split <;> simp [Progress.fits]
theorem routeAddWork_fits : (routeAddWork ps s).2.fits := by
  refine withIdentity_fits s fun i a => State.withReference_fits s fun t => ?_
  unfold addRoute; (repeat' split) <;> simp [Progress.fits]
theorem routeChangeWork_fits : (routeChangeWork ps s).2.fits := by
  refine withIdentity_fits s fun i c => ?_
  split
  · exact refuse_fits s _
  · refine State.withReference_fits s fun t => ?_
    unfold changeRoute; split <;> exact Nat.zero_le _
theorem routeDropWork_fits : (routeDropWork ps s).2.fits := by
  refine withIdentity_fits s fun i _ => ?_
  split
  · exact refuse_fits s _
  · exact State.withReference_fits s fun t => by simp [dropRoute, Progress.fits]
theorem routeReadWork_fits : (routeReadWork ps s).2.fits := by
  unfold routeReadWork
  split
  · exact refuse_fits s _
  · exact answerRoute_fits s _
  · exact withIdentity_fits s fun _ _ => answerRoute_fits s _
  · exact withIdentity_fits s fun _ _ => answerRoute_fits s _
theorem routeFindWork_fits : (routeFindWork ps s).2.fits := by
  unfold routeFindWork
  split
  · exact answerRoute_fits s _
  · exact refuse_fits s _
theorem exitCreateWork_fits : (exitCreateWork ps s).2.fits := by
  unfold exitCreateWork; (repeat' split) <;> exact Nat.zero_le _
theorem changeExit_fits (c : Option ExitWrite) : (changeExit c s).2.fits := by
  unfold changeExit
  split
  · exact refuse_fits s _
  · split
    · exact refuse_fits s _
    · exact State.withReads_fits s fun _ _ => Nat.zero_le _
theorem exitDeleteWork_fits : (exitDeleteWork ps s).2.fits := by
  unfold exitDeleteWork; (repeat' split) <;> exact Nat.zero_le _
theorem exitReadWork_fits : (exitReadWork ps s).2.fits := by
  unfold exitReadWork
  split
  · exact refuse_fits s _
  · split
    · exact refuse_fits s _
    · exact State.withReads_fits s fun _ t => answerOk_fits t ((Exit.readWords_length _ _ _).trans (by decide))
theorem setCreateWork_fits : (setCreateWork ps s).2.fits := by
  unfold setCreateWork
  split
  · exact refuse_fits s _
  · split
    · exact refuse_fits s _
    · exact State.withReads_fits s fun _ _ => Nat.zero_le _
theorem setChangeWork_fits : (setChangeWork ps s).2.fits := by
  unfold setChangeWork; (repeat' split) <;> exact Nat.zero_le _
theorem setDeleteWork_fits : (setDeleteWork ps s).2.fits := by
  unfold setDeleteWork; (repeat' split) <;> exact Nat.zero_le _
theorem memberAddWork_fits : (memberAddWork ps s).2.fits := by
  unfold memberAddWork
  split
  · exact refuse_fits s _
  · split
    · exact refuse_fits s _
    · exact State.withReads_fits s fun _ t => answerOk_fits t (by simp)
theorem memberRemoveWork_fits : (memberRemoveWork ps s).2.fits := by
  unfold memberRemoveWork; (repeat' split) <;> exact Nat.zero_le _
theorem memberWeightWork_fits : (memberWeightWork ps s).2.fits := by
  unfold memberWeightWork; (repeat' split) <;> exact Nat.zero_le _
theorem setRefillWork_fits : (setRefillWork ps s).2.fits := by
  unfold setRefillWork; (repeat' split) <;> simp [Progress.fits]
theorem mapReadWork_fits : (mapReadWork ps s).2.fits := by
  unfold mapReadWork
  split
  · split
    · exact refuse_fits s _
    · exact answerOk_fits s ((PathSet.mapWords_length _ _).trans (by decide))
  · exact refuse_fits s _
theorem portForceWork_fits : (portForceWork ps s).2.fits := by
  unfold portForceWork; split <;> simp [Progress.fits]
theorem portReadWork_fits : (portReadWork ps s).2.fits := by
  unfold portReadWork; split <;> simp [Progress.fits, State.portWords]
theorem laneEnableWork_fits : (laneEnableWork ps s).2.fits := by
  unfold laneEnableWork; (repeat' split) <;> simp [Progress.fits]
theorem laneDisableWork_fits : (laneDisableWork ps s).2.fits := by
  unfold laneDisableWork; (repeat' split) <;> exact Nat.zero_le _
theorem laneReadWork_fits : (laneReadWork ps s).2.fits := by
  unfold laneReadWork; split <;> simp [Progress.fits, State.laneWords]
theorem laneWeightWork_fits : (laneWeightWork ps s).2.fits := by
  unfold laneWeightWork; dsimp only; (repeat' split) <;> exact Nat.zero_le _
theorem probeWork_fits : (probeWork ps s).2.fits := by
  unfold probeWork; split <;> simp [Progress.fits]
theorem jobStartWork_fits : (jobStartWork ps s).2.fits := by
  unfold jobStartWork; (repeat' split) <;> simp [Progress.fits]
theorem jobCancelWork_fits : (jobCancelWork ps s).2.fits := by
  unfold jobCancelWork
  (repeat' split)
  · exact refuse_fits s _
  · trivial
  · exact State.cancelProgress_fits _ _
  · exact refuse_fits s _
theorem jobReadWork_fits : (jobReadWork ps s).2.fits := by
  unfold jobReadWork
  (repeat' split)
  · exact refuse_fits s _
  · exact answerOk_fits s (by simp)
  all_goals exact answerOk_fits s ((Job.readWords_length _ _).trans (by decide))
theorem collectWork_fits : (collectWork ps s).2.fits := by
  unfold collectWork
  split
  · exact refuse_fits s _
  · exact answerOk_fits _ ((Record.words_length _ _).trans (by decide))
theorem attentionMaskWork_fits : (attentionMaskWork ps s).2.fits := by
  unfold attentionMaskWork; dsimp only; split <;> simp [Progress.fits]
theorem identifyWork_fits : (identifyWork ps s).2.fits := answerOk_fits s (by simp)
theorem setParametersWork_fits : (setParametersWork ps s).2.fits := by
  unfold setParametersWork; (repeat' split) <;> simp [Progress.fits]
theorem readSpaceWork_fits : (readSpaceWork ps s).2.fits := answerOk_fits s (by simp)
theorem restartWork_fits : (restartWork ps s).2.fits := by
  rcases restartWork_cases ps s with ⟨-, he⟩ | ⟨-, -, he⟩ | ⟨-, -, he⟩ <;> rw [he] <;> trivial

end

/-- SET READ's words follow the member list (R47). -/
theorem setReadWork_fits {s : State} (hpt : s.pt.lawful) (ps : List Word) : (setReadWork ps s).2.fits := by
  unfold setReadWork
  split
  · exact refuse_fits s _
  · split
    · exact refuse_fits s _
    · rename_i p hp
      obtain ⟨hlen, -⟩ := PathTable.set?_lawful hpt hp
      refine answerOk_fits s ?_
      simp only [PathSet.readWords, List.length_append, List.length_cons, List.length_nil, List.length_map]
      unfold Config.maxMembers at hlen
      omega

/-! ### The rows -/

section
variable {s : State} (h : s.answersFit)
include h

theorem runCommand_answersFit (code : Nat) {body : List Word → State → Reply} (hb : ∀ ps, (body ps s).2.fits) :
    leadsTo State.answersFit (.next (runCommand code body s)) := by
  rw [leadsTo_next]
  rcases runCommand_cases code body s with he | ⟨w, ps, p, -, -, -, -, ⟨-, he⟩ | ⟨-, -, he⟩⟩ <;> rw [he]
  · exact h
  · exact (State.progressTo_answersFit _ _ _).mpr (hb ps)
  · exact (State.setCu_answersFit s _ _).mpr trivial

theorem execWordWrite_answersFit (w : Word) : leadsTo State.answersFit (execWordWrite w s) := by
  have hcomplete : ∀ t : State, t.answersFit → ∀ ws cs, (t.completeCommand ws cs).answersFit := fun t ht ws cs => by
    unfold State.completeCommand
    split
    · exact (State.setCu_answersFit _ ws .held).mpr trivial
    · exact ht
  rw [execWordWrite, leadsTo_next]
  (repeat' split)
  · exact h
  · exact h
  · unfold State.takeFirstWord
    (repeat' split)
    · exact h
    · exact hcomplete _ (by exact h) _ _
    · exact h
  · unfold State.takeParameter
    dsimp only
    split
    · exact h
    · exact hcomplete s h _ _
  all_goals exact h

/-- The claim that is left adds at most one word to what the CU has (R85). -/
theorem State.lastClaim_answersFit : s.lastClaim.answersFit := by
  unfold State.lastClaim
  (repeat' split)
  case h_1.isTrue hcu _ =>
    have := (State.answersFit_busy hcu).mp h
    rw [State.progressTo_answersFit]
    simp only [Progress.fits, List.length_append, List.length_cons, List.length_nil] at this ⊢
    omega
  case h_2.isTrue | h_3.isTrue | h_4.isTrue => simp [Progress.fits, State.parameterWords]
  all_goals exact h

theorem execWorkPhaseEnd_answersFit : leadsTo State.answersFit (execWorkPhaseEnd s) := by
  unfold execWorkPhaseEnd
  dsimp only
  rw [leadsTo_next]
  (repeat' split)
  · exact fun _ _ hcu => nomatch hcu
  · exact State.lastClaim_answersFit h
  · exact h

theorem State.handBack_answersFit (c : Source) (b : Nat) (r : Result) : (s.handBack c b r).answersFit := by
  unfold State.handBack
  cases c with
  | lane n => exact h
  | probe =>
    dsimp only
    split
    · rw [State.setCu_answersFit]
      show _ ≤ 31
      simp [Result.probeWords, Result.exitWords_length]
    · exact h

theorem State.grantLane_answersFit (n : Fin 4) (a : Nat) : (s.grantLane n a).answersFit := by
  unfold State.grantLane
  (repeat' split)
  · exact h
  · exact State.handBack_answersFit (by exact h) _ _ _
  · exact h

theorem State.lookupClaim_answersFit (k : Lookup) : (s.lookupClaim k).answersFit := by
  unfold State.lookupClaim
  dsimp only
  (repeat' split)
  · exact State.handBack_answersFit (by exact h) _ _ _
  · exact State.handBack_answersFit (by exact h) _ _ _
  · exact State.handBack_answersFit (by exact h) _ _ _
  · exact State.handBack_answersFit (by exact h) _ _ _
  · exact h

theorem State.resolution_answersFit (c : Source) (k : Ask) (len : Nat) (t : Target) (g : BitVec 16) (d : DropVerdict) :
    (s.resolution c k len t g d).answersFit := by
  rcases s.resolution_cases c k len t g d with ⟨-, he⟩ | ⟨-, he⟩ <;> rw [he]
  · exact State.handBack_answersFit (by exact h) _ _ _
  · exact h

theorem State.settleCancel_answersFit : s.settleCancel.answersFit := by
  unfold State.settleCancel
  split
  · exact (State.setCu_answersFit s _ _).mpr (State.cancelProgress_fits s _)
  · exact h

theorem State.finishStep_answersFit (n : Fin 4) (j : Job) : (s.finishStep n j).answersFit :=
  State.answersFit_congr (State.settleCancel_answersFit (State.answersFit_congr h (by simp))) (State.presentStep_cu _ _)

theorem State.stepMade_answersFit (n : Fin 4) (j : Job) (k : Option Job) : (s.stepMade n j k).answersFit := by
  cases k with
  | none => exact h
  | some k => exact State.finishStep_answersFit h n k

theorem execStepClaim_answersFit : leadsTo State.answersFit (execStepClaim s) := by
  have hmade : ∀ j f a, (s.makeStep j f a).1.answersFit := fun j f a => State.answersFit_congr h (by simp)
  unfold execStepClaim
  (repeat' split) <;> rw [leadsTo_next]
  · exact h
  · exact State.answersFit_congr h (by simp)
  · exact h
  · exact h
  · exact State.stepMade_answersFit (hmade _ _ _) _ _ _
  all_goals exact h

theorem execRefillClaim_answersFit : leadsTo State.answersFit (execRefillClaim s) := by
  unfold execRefillClaim
  dsimp only
  (repeat' split) <;> rw [leadsTo_next]
  · exact h
  · exact h
  · exact h
  · exact h
  · exact State.finishStep_answersFit (by exact h) _ _
  all_goals exact h

theorem execPinClaim_answersFit (n : Fin 4) : leadsTo State.answersFit (execPinClaim n s) := by
  unfold execPinClaim
  (repeat' split) <;> rw [leadsTo_next]
  · exact State.answersFit_congr (State.settleCancel_answersFit (State.answersFit_congr h (by simp))) (State.presentStep_cu _ _)
  all_goals exact h

/-- A row that touches the CU keeps the size of its answer, SET READ for a lawful Path Table. -/
theorem exec_answersFit (hpt : s.pt.lawful) (i : Instr) : leadsTo State.answersFit (exec i s) := by
  by_cases hp : Part.cu ∈ touches i
  · cases i <;> simp only [touches, List.mem_cons, List.not_mem_nil, or_false, reduceCtorEq, or_self] at hp
    case wordWrite w => exact execWordWrite_answersFit h w
    case workPhaseEnd => exact execWorkPhaseEnd_answersFit h
    case domainSet => exact runCommand_answersFit h _ (domainSetWork_fits s)
    case domainRead => exact runCommand_answersFit h _ (domainReadWork_fits s)
    case routeAdd => exact runCommand_answersFit h _ (routeAddWork_fits s)
    case routeChange => exact runCommand_answersFit h _ (routeChangeWork_fits s)
    case routeDrop => exact runCommand_answersFit h _ (routeDropWork_fits s)
    case routeRead => exact runCommand_answersFit h _ (routeReadWork_fits s)
    case routeFind => exact runCommand_answersFit h _ (routeFindWork_fits s)
    case exitCreate => exact runCommand_answersFit h _ (exitCreateWork_fits s)
    case exitChange | exitEnable | exitDisable => exact runCommand_answersFit h _ fun _ => changeExit_fits s _
    case exitDelete => exact runCommand_answersFit h _ (exitDeleteWork_fits s)
    case exitRead => exact runCommand_answersFit h _ (exitReadWork_fits s)
    case setCreate => exact runCommand_answersFit h _ (setCreateWork_fits s)
    case setChange => exact runCommand_answersFit h _ (setChangeWork_fits s)
    case setDelete => exact runCommand_answersFit h _ (setDeleteWork_fits s)
    case setRead => exact runCommand_answersFit h _ (setReadWork_fits hpt)
    case memberAdd => exact runCommand_answersFit h _ (memberAddWork_fits s)
    case memberRemove => exact runCommand_answersFit h _ (memberRemoveWork_fits s)
    case memberWeight => exact runCommand_answersFit h _ (memberWeightWork_fits s)
    case setRefill => exact runCommand_answersFit h _ (setRefillWork_fits s)
    case mapRead => exact runCommand_answersFit h _ (mapReadWork_fits s)
    case portForce => exact runCommand_answersFit h _ (portForceWork_fits s)
    case portRead => exact runCommand_answersFit h _ (portReadWork_fits s)
    case laneEnable => exact runCommand_answersFit h _ (laneEnableWork_fits s)
    case laneDisable => exact runCommand_answersFit h _ (laneDisableWork_fits s)
    case laneRead => exact runCommand_answersFit h _ (laneReadWork_fits s)
    case laneWeight => exact runCommand_answersFit h _ (laneWeightWork_fits s)
    case probe => exact runCommand_answersFit h _ (probeWork_fits s)
    case jobStart => exact runCommand_answersFit h _ (jobStartWork_fits s)
    case jobCancel => exact runCommand_answersFit h _ (jobCancelWork_fits s)
    case jobRead => exact runCommand_answersFit h _ (jobReadWork_fits s)
    case collect => exact runCommand_answersFit h _ (collectWork_fits s)
    case attentionMask => exact runCommand_answersFit h _ (attentionMaskWork_fits s)
    case identify => exact runCommand_answersFit h _ (identifyWork_fits s)
    case setParameters => exact runCommand_answersFit h _ (setParametersWork_fits s)
    case readParameters => exact runCommand_answersFit h _ fun _ => trivial
    case readSpace => exact runCommand_answersFit h _ (readSpaceWork_fits s)
    case restart => exact runCommand_answersFit h _ (restartWork_fits s)
    case restartComplete =>
      show leadsTo _ (execRestartComplete s)
      unfold execRestartComplete
      (repeat' split) <;> rw [leadsTo_next]
      · exact (State.setCu_answersFit s _ _).mpr (Nat.zero_le _)
      · exact h
      · exact h
    case grant =>
      show leadsTo _ (execGrant s)
      unfold execGrant
      rw [leadsTo_next]
      (repeat' split)
      · exact h
      · exact h
      · exact h
      · exact State.grantLane_answersFit h _ _
    case lookupClaim =>
      have hpassed : (s.setRs { s.rs with fairness := s.rs.fairness + 1 }).answersFit := h
      show leadsTo _ (execLookupClaim s)
      unfold execLookupClaim
      (repeat' split) <;> rw [leadsTo_next]
      · exact h
      · exact State.lookupClaim_answersFit hpassed _
      · exact State.lookupClaim_answersFit h _
      · exact h
    case resolutionClaim =>
      show leadsTo _ (execResolutionClaim s)
      unfold execResolutionClaim
      (repeat' split) <;> rw [leadsTo_next]
      · exact h
      · exact State.resolution_answersFit h _ _ _ _ _ _
      all_goals exact h
    case stepClaim => exact execStepClaim_answersFit h
    case refillClaim => exact execRefillClaim_answersFit h
    case pinClaim n => exact execPinClaim_answersFit h n
    case hardwareReset ns =>
      refine leadsTo_next.mpr ?_
      split
      · exact fun _ _ hcu => nomatch hcu
      · exact h
    case supplyInvalid rail => exact leadsTo_next.mpr fun _ _ hcu => nomatch hcu
    case startupClearingEnd =>
      refine leadsTo_next.mpr ?_
      split
      · exact fun _ _ hcu => nomatch hcu
      · exact h
  · intro t ht
    exact State.answersFit_congr h (exec_same ht hp)

theorem State.tick_answersFit : s.tick.answersFit := by
  have hvisit : s.takeStep.takeVisit.answersFit := State.answersFit_congr h (by simp)
  unfold State.tick
  rcases s.takeStep.takeVisit.takeRead_cases with he | ⟨w, ps, p, q, rest, -, -, -, -, -, -, he⟩ <;> rw [he]
  · exact hvisit
  · exact State.answersFit_congr (s := s.takeStep.takeVisit.setCu (.busy (w :: ps) .waiting))
      ((State.setCu_answersFit _ _ _).mpr trivial) rfl

end

/-- Settles O59: the port and the CU agree after every row, as the words that the CU holds are those of the port; and every
answer that a row forms fits. -/
theorem managementLawKept : Obligations.ManagementLawKept := by
  constructor
  · exact fun s t h hstep => step_keeps (P := State.managed) (fun _ _ h => h) (fun _ h => State.tick_managed h)
      (fun i _ h => exec_managed h i) h hstep
  · exact fun s t hpt h hstep => (step_keeps (P := fun s => s.pt.lawful ∧ s.answersFit) (fun _ _ h => h)
      (fun s h => ⟨s.tick_lawful.mpr h.1, State.tick_answersFit h.2⟩)
      (fun i _ h t ht => ⟨exec_pathsLawful h.1 i t ht, exec_answersFit h.2 h.1 i t ht⟩) ⟨hpt, h⟩ hstep).2

end Sys2Proof.Machine
end

section
/-! PROOFS. The values of the blocks right after reset, and that the laws hold there. -/

namespace Sys2Proof.Machine

-- The proofs are elaborated one after another: each thread counts against the memory in which the text is checked.
set_option Elab.async false

@[simp] theorem State.reset_lane (n : Fin 4) : State.reset.lane n = Lane.reset := by
  simp [State.reset, State.lane]

@[simp] theorem State.reset_port (p : Fin 64) : State.reset.port p = Port.reset := by
  simp [State.reset, State.port, PortMonitor.reset]

@[simp] theorem State.reset_slot (n : Fin 4) : State.reset.slot n = .idle := by
  simp [State.reset, State.slot, JobEngine.reset]

@[simp] theorem RouteStore.reset_domain (d : Fin 16) : RouteStore.reset.domain d = Domain.reset d := by
  simp [RouteStore.reset, RouteStore.resetDomains, RouteStore.domain]

/-- Settles O3. -/
theorem hardwareResetValues : Obligations.HardwareResetValues := by
  refine ⟨⟨rfl, rfl, rfl, rfl, rfl, rfl⟩, RouteStore.reset_domain, ⟨rfl, rfl, rfl, rfl⟩, State.reset_port, ⟨rfl, rfl⟩,
    fun n => ?_, ⟨rfl, rfl, rfl, rfl⟩, ⟨State.reset_slot, rfl, rfl⟩, ⟨rfl, rfl, rfl, rfl⟩, rfl, rfl, rfl, rfl, rfl, rfl⟩
  rw [State.reset_lane]
  simp [Lane.reset]

theorem State.reset_jobs : State.reset.je.jobs = [] := rfl

/-- No record and no route is there, so nothing is named. -/
theorem State.reset_referencesAgree : State.reset.referencesAgree := by
  refine ⟨?_, ?_, ?_, ?_, ?_⟩
  · exact fun _ h => nomatch h
  · exact fun _ h => nomatch h
  · exact fun _ h => nomatch h
  · exact fun _ h => nomatch h
  · intro j hj
    rw [State.reset_jobs] at hj
    exact nomatch hj

theorem State.reset_lanesLawful : State.reset.lanesLawful := by
  refine ⟨fun n => State.reset_lane n ▸ Lane.reset_lawful, fun n hn => ?_⟩
  rw [State.reset_lane] at hn
  exact absurd hn (by decide)

theorem State.reset_creditsConserved : State.reset.creditsConserved := by
  refine ⟨fun n => ?_, fun _ n => by rw [State.reset_lane]; rfl⟩
  rw [State.reset_lane]
  refine ⟨nofun, fun _ => ⟨rfl, rfl, rfl⟩, rfl, nofun⟩

theorem State.reset_attentionLawful : State.reset.attentionLawful := by
  refine ⟨List.Pairwise.nil, fun n j hj => ?_, fun _ _ _ _ _ _ h => nomatch h⟩
  rw [State.reset_slot] at hj
  exact nomatch hj

theorem State.reset_managementLawful : State.reset.managementLawful := by
  rw [State.managementLawful_iff]
  simp [State.reset, ManagementPort.reset]

/-- Settles O60, law by law. -/
theorem lawsHoldAtReset : Obligations.LawsHoldAtReset :=
  ⟨RouteStore.reset_lawful, PathTable.reset_lawful, State.reset_referencesAgree,
    fun p => State.reset_port p ▸ Port.reset_lawful, State.reset_lanesLawful, State.reset_creditsConserved,
    State.reset_attentionLawful, State.reset_managementLawful, fun _ _ h => nomatch h⟩

end Sys2Proof.Machine
end

section
/-! PROOFS. The route commands (section 1.7): the replies of each command's work, and the steps that they make. -/

namespace Sys2Proof.Machine

-- The proofs are elaborated one after another: each thread counts against the memory in which the text is checked.
set_option Elab.async false

/-! ### The checks of an identity (R19) -/

section
variable {α : Type} {ps : List Word} {others : Nat} {more : Identity → Option α} {s : State} {work : Identity → α → Reply}
  {i : Identity} {a : α} (hi : identityOf ps others = some i)
include hi

theorem withIdentity_badKey (ha : more i = some a) (hk : i.keyOk = false) :
    withIdentity ps others more s work = refuse s .badKey := by
  simp [withIdentity, hi, ha, hk]

theorem withIdentity_ok (ha : more i = some a) (hk : i.keyOk = true) : withIdentity ps others more s work = work i a := by
  simp [withIdentity, hi, ha, hk]

end

/-! ### Reference claims (R18, R36) -/

section
variable {s : State} {refers : Bool} {work : State → Reply}

/-- The state from which a command's part that may change references is made: its reference claim waits no more. -/
def State.referenced (s : State) (refers : Bool) : State := if refers then s.setPt (s.pt.withdraw .reference) else s

@[simp] theorem State.referenced_cu : (s.referenced refers).cu = s.cu := by unfold State.referenced; split <;> rfl
@[simp] theorem State.referenced_rs : (s.referenced refers).rs = s.rs := by unfold State.referenced; split <;> rfl
@[simp] theorem State.referenced_stands (t : Target) : (s.referenced refers).pt.stands t = s.pt.stands t := by
  unfold State.referenced
  split
  · cases t <;> rfl
  · rfl

theorem State.withReference_made (h : refers = true → s.ptAdmits .reference = true) :
    s.withReference refers work = work (s.referenced refers) := by
  cases refers <;> simp [State.withReference, State.referenced, h]

theorem State.withReference_left (h : refers = true) (ha : s.ptAdmits .reference = false) :
    s.withReference refers work = (s.setPt (s.pt.offer .reference), .referring) := by
  simp [State.withReference, h, ha]

end

/-! ### The route table and the counts of a domain (R3, R4) -/

theorem RouteStore.find?_eq_none {rs : RouteStore} {i : Identity} : rs.find? i = none ↔ ∀ x ∈ rs.routes, x.ident ≠ i := by
  simp [RouteStore.find?]

theorem RouteStore.find?_isSome {rs : RouteStore} {i : Identity} :
    (rs.find? i).isSome = true ↔ ∃ x ∈ rs.routes, x.ident = i := by
  simp [RouteStore.find?]

theorem RouteStore.countFamily_domain (rs : RouteStore) (d c : Fin 16) (fam : Family) (f : Nat → Nat) :
    (rs.countFamily d fam f).domain c = if c = d then
      (match fam with
        | .narrow => { rs.domain c with narrowCount := f (rs.domain c).narrowCount }
        | .wide => { rs.domain c with wideCount := f (rs.domain c).wideCount })
      else rs.domain c := by
  unfold RouteStore.countFamily
  by_cases h : c = d
  · subst h
    cases fam <;> simp
  · rw [if_neg h, RouteStore.updDomain_ne _ _ h]

@[simp] theorem State.evalWatermark_units (s : State) : s.evalWatermark.rs.units = s.rs.units := by
  unfold State.evalWatermark
  (repeat' split) <;> simp

/-- The Route Store with the route inserted (R9). -/
def RouteStore.withRoute (rs : RouteStore) (r : Route) : RouteStore :=
  RouteStore.countFamily { rs with routes := insertRoute r rs.routes, units := rs.units + r.family.size }
    r.ident.domain r.family (· + 1)

/-- The Route Store with the route withdrawn (R10). -/
def RouteStore.withoutRoute (rs : RouteStore) (r : Route) : RouteStore :=
  RouteStore.countFamily { rs with routes := rs.routes.filter (·.ident != r.ident), units := rs.units - r.family.size }
    r.ident.domain r.family (· - 1)

theorem State.insertRoute_eq (s : State) (r : Route) : s.insertRoute r = (s.setRs (s.rs.withRoute r)).evalWatermark := rfl

theorem State.withdrawRoute_eq (s : State) (r : Route) : s.withdrawRoute r =
    ((s.setRs (s.rs.withoutRoute r)).setPt (s.pt.countRoute (· - 1) r.target)).evalWatermark := rfl

theorem Target.counted_iff (t : Target) : t.counted = true ↔ (∃ x, t = .pathSet x) ∨ ∃ x, t = .exit x := by
  cases t <;> simp [Target.counted]

/-! ### ROUTE ADD (R21) -/

section
variable {s : State} {i : Identity} {a : Target × RouteClass × BitVec 16}

theorem addRoute_noTarget (ht : s.pt.stands a.1 = false) : addRoute i a s = refuse s .noTarget := by
  simp [addRoute, PathTable.takeRoute, ht]

theorem addRoute_exists (ht : s.pt.stands a.1 = true) (hi : ∃ x ∈ s.rs.routes, x.ident = i) :
    addRoute i a s = refuse s .exists := by
  simp [addRoute, PathTable.takeRoute, ht, RouteStore.find?_isSome.mpr hi]

theorem addRoute_noSpace (ht : s.pt.stands a.1 = true) (hi : ∀ x ∈ s.rs.routes, x.ident ≠ i)
    (hu : 65536 < s.rs.units + i.family.size) : addRoute i a s = refuse s .noSpace := by
  simp [addRoute, PathTable.takeRoute, ht, RouteStore.find?_eq_none.mpr hi, Config.storageUnits, hu]

theorem addRoute_inserts (ht : s.pt.stands a.1 = true) (hi : ∀ x ∈ s.rs.routes, x.ident ≠ i)
    (hu : s.rs.units + i.family.size ≤ 65536) : addRoute i a s = answerOk
      (((s.setPt (s.pt.countRoute (· + 1) a.1)).setRs (s.rs.withRoute ⟨i, a.1, a.2.1, a.2.2, false, 0⟩)).evalWatermark)
      [BitVec.ofNat 32 (s.rs.units + i.family.size)] := by
  have hu' : ¬ Config.storageUnits < s.rs.units + i.family.size := Nat.not_lt.mpr hu
  simp only [addRoute, PathTable.takeRoute, ht, if_true, RouteStore.find?_eq_none.mpr hi, Option.isSome_none, Bool.false_eq_true,
    if_false, hu', State.insertRoute_eq, State.evalWatermark_units]
  rfl

end

theorem routeAddFields_eq {ps : List Word} {i : Identity} {t : Target} {c : RouteClass}
    (ht : targetOf (param ps i.after) = some t) (hc : attrClass (param ps (i.after + 1)) = some c) :
    routeAddFields ps i = some (t, c, attrTag (param ps (i.after + 1))) := by
  simp [routeAddFields, ht, hc]

/-- Settles O15: the identity's checks come first, then the reference claim, then the replies of `addRoute`. -/
theorem routeAddInserts : Obligations.RouteAddInserts := by
  intro s ps i t c hw hi ht hc
  have hfields := routeAddFields_eq ht hc
  refine ⟨fun hk => exec_refused rfl hw (withIdentity_badKey hi hfields hk), fun hk => ⟨t.counted_iff, fun hcount ha => ?_,
    fun ha => ?_⟩⟩
  · exact exec_progress rfl hw ((withIdentity_ok hi hfields hk).trans (State.withReference_left hcount ha)) rfl
  · have hmade := (withIdentity_ok (s := s) (work := fun i a => s.withReference a.1.counted (addRoute i a)) hi hfields hk).trans
      (State.withReference_made ha)
    have hu : (if t.counted then s.setPt (s.pt.withdraw .reference) else s) = s.referenced t.counted := rfl
    dsimp only
    rw [hu]
    refine ⟨fun hst => ?_, fun hst hx => ?_, fun hst hx hroom => ?_, fun hst hx hroom => ?_⟩
    · exact exec_answered rfl hw (hmade.trans (addRoute_noTarget (by simpa using hst))) (by simp)
    · exact exec_answered rfl hw (hmade.trans (addRoute_exists (by simpa using hst) (by simpa using hx))) (by simp)
    · exact exec_answered rfl hw (hmade.trans (addRoute_noSpace (by simpa using hst) (by simpa using hx) (by simpa using hroom)))
        (by simp)
    · refine ⟨s.rs.withRoute ⟨i, t, c, attrTag (param ps (i.after + 1)), false, 0⟩, insertRoute_perm _ _, rfl, rfl, rfl, rfl, rfl,
        fun d => RouteStore.countFamily_domain _ _ _ _ _, ?_⟩
      have hin := addRoute_inserts (s := s.referenced t.counted) (i := i) (a := (t, c, attrTag (param ps (i.after + 1))))
        (by simpa using hst) (by simpa using hx) (by simpa using hroom)
      rw [State.referenced_rs] at hin
      exact exec_answered rfl hw (hmade.trans hin) (by simp)

/-! ### ROUTE CHANGE (R22) -/

/-- The fields of ROUTE CHANGE with the target and the class given, read as the selection word has it. -/
def routeChangeOf (sel attr : Word) (t : Target) (c : RouteClass) : RouteChange :=
  ⟨if bits sel 0 0 = 1 then some t else none, if bits sel 1 1 = 1 then some c else none,
    if bits sel 2 2 = 1 then some (attrTag attr) else none, bits sel 3 3 == 1⟩

theorem routeChangeFields_eq {ps : List Word} {i : Identity} {t : Target} {c : RouteClass}
    (ht : bits (param ps i.after) 0 0 = 1 → targetOf (param ps (i.after + 1)) = some t)
    (hc : bits (param ps i.after) 1 1 = 1 → attrClass (param ps (i.after + 2)) = some c) :
    routeChangeFields ps i = some (routeChangeOf (param ps i.after) (param ps (i.after + 2)) t c) := by
  by_cases h0 : bits (param ps i.after) 0 0 = 1 <;> by_cases h1 : bits (param ps i.after) 1 1 = 1 <;>
    simp [routeChangeFields, whenSelected, selected, routeChangeOf, h0, h1, ht, hc]

section
variable {s : State} {i : Identity} {c : RouteChange} {r : Route}

theorem changeRoute_noTarget {t : Target} (ht : c.target = some t) (hs : s.pt.stands t = false) :
    changeRoute i c r s = refuse s .noTarget := by
  simp [changeRoute, RouteChange.references, ht, PathTable.takeRoute, hs]

/-- The reference changes of a change whose target stands. -/
theorem RouteChange.references_eq (hs : ∀ t, c.target = some t → s.pt.stands t = true) (old : Target) :
    c.references old s.pt = some (match c.target with
      | some t => (s.pt.countRoute (· + 1) t).countRoute (· - 1) old
      | none => s.pt) := by
  cases hc : c.target with
  | none => simp [RouteChange.references, hc]
  | some t => simp [RouteChange.references, hc, PathTable.takeRoute, hs t hc, PathTable.releaseRoute]

end

section
variable {s : State} {ps : List Word} {i : Identity} {c : RouteChange} (hi : identityOf ps 4 = some i)
  (hc : routeChangeFields ps i = some c) (hk : i.keyOk = true)
include hi hc hk

theorem routeChangeWork_absent (hr : ∀ x ∈ s.rs.routes, x.ident ≠ i) : routeChangeWork ps s = refuse s .absent := by
  rw [routeChangeWork, withIdentity_ok hi hc hk, RouteStore.find?_eq_none.mpr hr]

theorem routeChangeWork_found {r : Route} (hr : s.rs.find? i = some r) :
    routeChangeWork ps s = s.withReference (c.refers r.target) (changeRoute i c r) := by
  rw [routeChangeWork, withIdentity_ok hi hc hk, hr]

end

theorem getD_ite {α : Type} (p : Prop) [Decidable p] (a b : α) : (if p then some a else none).getD b = if p then a else b := by
  split <;> rfl

/-- What ROUTE CHANGE writes into the record, field by field as selected. -/
theorem routeChangeOf_apply (sel attr : Word) (t : Target) (c : RouteClass) :
    (routeChangeOf sel attr t c).apply = fun x =>
      { x with target := if bits sel 0 0 = 1 then t else x.target
               cls := if bits sel 1 1 = 1 then c else x.cls
               tag := if bits sel 2 2 = 1 then attrTag attr else x.tag
               mark := if bits sel 3 3 = 1 then false else x.mark
               hits := if bits sel 3 3 = 1 then 0 else x.hits } := by
  funext x
  simp only [RouteChange.apply, routeChangeOf, Route.resetActivity, getD_ite, beq_iff_eq]
  split <;> rfl

/-- Settles O16: the identity's checks come first, then the search, the reference claim, and the take. -/
theorem routeChangeWrites : Obligations.RouteChangeWrites := by
  intro s ps i t c hw hi sel ht hc
  have hfields : routeChangeFields ps i = some (routeChangeOf sel (param ps (i.after + 2)) t c) := routeChangeFields_eq ht hc
  refine ⟨fun hk => exec_refused rfl hw (withIdentity_badKey hi hfields hk), fun hk => ⟨fun hno => ?_, fun r hr => ?_⟩⟩
  · exact exec_refused rfl hw (routeChangeWork_absent hi hfields hk hno)
  · intro refers u
    have hfound := routeChangeWork_found hi hfields hk hr
    have hrefers : (routeChangeOf sel (param ps (i.after + 2)) t c).refers r.target = decide refers := by
      by_cases h0 : bits sel 0 0 = 1 <;> simp [RouteChange.refers, routeChangeOf, refers, h0]
    rw [hrefers] at hfound
    have hu : u = s.referenced (decide refers) := by simp [u, State.referenced]
    refine ⟨fun hre ha => ?_, fun ha => ?_⟩
    · exact exec_progress rfl hw (hfound.trans (State.withReference_left (by simpa using hre) ha)) rfl
    · have hmade := hfound.trans (State.withReference_made (by simpa using ha))
      rw [← hu] at hmade
      have hcu : u.cu = s.cu := by rw [hu]; simp
      have hrs : u.rs = s.rs := by rw [hu]; simp
      have hstands : ∀ t, u.pt.stands t = s.pt.stands t := fun t => by rw [hu]; simp
      refine ⟨fun h0 hst => ?_, fun hst => ?_⟩
      · refine exec_answered rfl hw (hmade.trans (changeRoute_noTarget (t := t) (if_pos h0) ?_)) hcu
        rw [hstands, hst]
      · have href := (routeChangeOf sel (param ps (i.after + 2)) t c).references_eq (s := u) (old := r.target) fun t' ht' => by
          obtain ⟨h0, rfl⟩ : bits sel 0 0 = 1 ∧ t = t' := by simpa [routeChangeOf] using ht'
          rw [hstands, hst h0]
        refine exec_answered rfl hw (hmade.trans ?_) (by simpa using hcu)
        rw [changeRoute, href, routeChangeOf_apply, hrs]
        by_cases h0 : bits sel 0 0 = 1 <;> simp [routeChangeOf, h0, answerOk]

/-! ### ROUTE DROP (R23) -/

theorem dropRoute_eq (s : State) (r : Route) : dropRoute r s = answerOk
    (((s.setRs (s.rs.withoutRoute r)).setPt (s.pt.countRoute (· - 1) r.target)).evalWatermark)
    [BitVec.ofNat 32 (s.rs.units - r.family.size)] := by
  simp only [dropRoute, State.withdrawRoute_eq, State.evalWatermark_units]
  rfl

section
variable {s : State} {ps : List Word} {i : Identity} (hi : identityOf ps 1 = some i) (hk : i.keyOk = true)
include hi

theorem routeDropWork_badKey (hk : i.keyOk = false) : routeDropWork ps s = refuse s .badKey :=
  withIdentity_badKey (more := fun _ => some ()) hi rfl hk

include hk

theorem routeDropWork_absent (hr : ∀ x ∈ s.rs.routes, x.ident ≠ i) : routeDropWork ps s = refuse s .absent := by
  rw [routeDropWork, withIdentity_ok (more := fun _ => some ()) hi rfl hk, RouteStore.find?_eq_none.mpr hr]

theorem routeDropWork_found {r : Route} (hr : s.rs.find? i = some r) :
    routeDropWork ps s = s.withReference r.target.counted (dropRoute r) := by
  rw [routeDropWork, withIdentity_ok (more := fun _ => some ()) hi rfl hk, hr]

end

/-- Settles O17: the identity's checks come first, then the search, the reference claim, and the withdrawal. -/
theorem routeDropWithdraws : Obligations.RouteDropWithdraws := by
  intro s ps i hw hi
  refine ⟨fun hk => exec_refused rfl hw (routeDropWork_badKey hi hk), fun hk => ⟨fun hno => ?_, fun r hr => ?_⟩⟩
  · exact exec_refused rfl hw (routeDropWork_absent hi hk hno)
  · obtain ⟨-, hri⟩ := RouteStore.find?_some hr
    have hfound := routeDropWork_found hi hk hr
    refine ⟨fun hre ha => ?_, fun ha => ?_⟩
    · exact exec_progress rfl hw (hfound.trans (State.withReference_left hre ha)) rfl
    · subst hri
      have hmade := (hfound.trans (State.withReference_made ha)).trans (dropRoute_eq _ r)
      rw [State.referenced_rs] at hmade
      exact ⟨s.rs.withoutRoute r, rfl, rfl, rfl, rfl, rfl, rfl, fun d => RouteStore.countFamily_domain _ _ _ _ _,
        exec_answered rfl hw hmade ((State.evalWatermark_cu _).trans State.referenced_cu)⟩

/-! ### ROUTE READ and ROUTE FIND (R24, R25) -/

/-- In a lawful table a route is the one of its identity. -/
theorem RouteStore.find?_of_mem {rs : RouteStore} (h : rs.lawful) {r : Route} (hr : r ∈ rs.routes) :
    rs.find? r.ident = some r := by
  obtain ⟨hsorted, -⟩ := h
  cases hf : rs.find? r.ident with
  | none => exact absurd rfl (RouteStore.find?_eq_none.mp hf r hr)
  | some x =>
    obtain ⟨hx, hxi⟩ := RouteStore.find?_some hf
    exact congrArg some (eq_of_ident hsorted hx hr hxi)

theorem RouteStore.successor_eq_none {rs : RouteStore} {i : Identity} :
    rs.successor i = none ↔ ∀ r ∈ rs.routes, i.before r.ident = false := by
  simp [RouteStore.successor]

/-- In a lawful table the successor is the least of the routes after the position. -/
theorem RouteStore.successor_of_least {rs : RouteStore} {i : Identity} {r : Route} (hr : r ∈ rs.routes)
    (hb : i.before r.ident = true) (h : rs.lawful)
    (hleast : ∀ x ∈ rs.routes, i.before x.ident = true → x ≠ r → r.ident.before x.ident = true) :
    rs.successor i = some r := by
  obtain ⟨hsorted, -⟩ := h
  obtain ⟨x, hx⟩ : ∃ x, rs.successor i = some x := Option.ne_none_iff_exists'.mp fun hn =>
    absurd (RouteStore.successor_eq_none.mp hn r hr) (by simp [hb])
  obtain ⟨hb', before, after, he, hbefore⟩ := List.find?_eq_some_iff_append.mp hx
  by_contra hne
  have hxr : x ≠ r := fun e => hne (e ▸ hx)
  have hxm : x ∈ rs.routes := by rw [he]; simp
  have hrx := hleast x hxm hb' hxr
  have hmem : r ∈ before ++ x :: after := he ▸ hr
  rw [he] at hsorted
  simp only [List.mem_append, List.mem_cons, List.pairwise_append, List.pairwise_cons] at hmem hsorted
  rcases hmem with hm | rfl | hm
  · simpa [hb] using hbefore r hm
  · exact hxr rfl
  · have := Identity.before_trans hrx (hsorted.2.1.1 r hm)
    simp [Identity.before_irrefl] at this

section
variable {s : State} {ps : List Word}

theorem routeReadWork_first (hm : bits (param ps 0) 7 0 = 3) : routeReadWork ps s = answerRoute s s.rs.routes.head? := by
  simp [routeReadWork, readModeOf, hm]

theorem routeReadWork_badKey {i : Identity} (hi : identityOf ps 1 = some i) (hk : i.keyOk = false)
    (hm : bits (param ps 0) 7 0 = 1 ∨ bits (param ps 0) 7 0 = 2) : routeReadWork ps s = refuse s .badKey := by
  rcases hm with hm | hm <;> simp [routeReadWork, readModeOf, hm, withIdentity_badKey (more := fun _ => some ()) hi rfl hk]

theorem routeReadWork_exact {i : Identity} (hi : identityOf ps 1 = some i) (hk : i.keyOk = true)
    (hm : bits (param ps 0) 7 0 = 1) : routeReadWork ps s = answerRoute s (s.rs.find? i) := by
  simp [routeReadWork, readModeOf, hm, withIdentity_ok (more := fun _ => some ()) hi rfl hk]

theorem routeReadWork_next {i : Identity} (hi : identityOf ps 1 = some i) (hk : i.keyOk = true)
    (hm : bits (param ps 0) 7 0 = 2) : routeReadWork ps s = answerRoute s (s.rs.successor i) := by
  simp [routeReadWork, readModeOf, hm, withIdentity_ok (more := fun _ => some ()) hi rfl hk]

@[simp] theorem familyOf_code (f : Family) : familyOf f.code = some f := by cases f <;> rfl

theorem routeFindWork_eq {d : Fin 16} {f : Family} (hd : bits (param ps 0) 31 24 = d.val)
    (hf : bits (param ps 0) 23 16 = f.code) (hl : ps.length = f.keyWords + 1) :
    routeFindWork ps s = answerRoute s (s.rs.longestMatch d (keyAt ps 1 f)) := by
  simp [routeFindWork, hd, familyFor, hf, hl]

end

/-- Settles O18: each mode is one search of the table, whose find is answered. -/
theorem routeReadAndFind : Obligations.RouteReadAndFind := by
  unfold Obligations.RouteReadAndFind
  intro record
  have hrecord : ∀ r, record r = r.toWords := fun r => by
    have hmark : wordOf ((if r.mark then 1 else 0) * 2 ^ 24) = pack8 (bitCode r.mark) 0 0 0 := by
      simp only [wordOf, pack8, bitCode, Nat.zero_mul, Nat.add_zero]
    simp only [record, hmark]
    rfl
  have hanswer : ∀ {c code s ps r}, hostCode c = some code → s.works code ps → hostWork c ps s = answerRoute s (some r) →
      exec c s = .next (s.answered .ok (record r)) := fun hc hw hb => by
    rw [hrecord]
    exact exec_answered hc hw hb rfl
  have habsent : ∀ {c code s ps}, hostCode c = some code → s.works code ps → hostWork c ps s = answerRoute s none →
      exec c s = .next (s.answered .absent []) := fun hc hw hb => exec_refused hc hw hb
  refine ⟨fun s ps hw => ⟨fun hm => ⟨fun hr => ?_, fun r rest hr => ?_⟩, fun i hi hk hm => ?_, fun i hi hk hl =>
    ⟨fun hm => ⟨fun hno => ?_, fun r hr hri => ?_⟩, fun hm => ⟨fun hno => ?_, fun r hr hb hleast => ?_⟩⟩⟩,
    fun s ps d f hw hd hf hlen => ⟨fun hno => ?_, fun r hr => ?_⟩⟩
  · exact habsent rfl hw ((routeReadWork_first hm).trans (by rw [hr]; rfl))
  · exact hanswer rfl hw ((routeReadWork_first hm).trans (by rw [hr]; rfl))
  · exact exec_refused rfl hw (routeReadWork_badKey hi hk hm)
  · exact habsent rfl hw ((routeReadWork_exact hi hk hm).trans (by rw [RouteStore.find?_eq_none.mpr hno]))
  · exact hanswer rfl hw ((routeReadWork_exact hi hk hm).trans (by rw [← hri, RouteStore.find?_of_mem hl hr]))
  · exact habsent rfl hw ((routeReadWork_next hi hk hm).trans (by rw [RouteStore.successor_eq_none.mpr hno]))
  · exact hanswer rfl hw ((routeReadWork_next hi hk hm).trans (by rw [RouteStore.successor_of_least hr hb hl hleast]))
  · exact habsent rfl hw ((routeFindWork_eq hd hf hlen).trans (by rw [hno]))
  · exact hanswer rfl hw ((routeFindWork_eq hd hf hlen).trans (by rw [hr]))

end Sys2Proof.Machine
end

section
/-! PROOFS. The arguments of the host commands (R171, step 1): what each reader refuses, in the words of `badArgs`. -/

namespace Sys2Proof.Machine

-- The proofs are elaborated one after another: each thread counts against the memory in which the text is checked.
set_option Elab.async false

/-! ### Readers of codes and numbers -/

theorem atMost_eq_none {limit v : Nat} : atMost limit v = none ↔ limit < v := by simp [atMost]
theorem rejoinOf_eq_none {n : Nat} : rejoinOf n = none ↔ n ∉ [1, 2] := by unfold rejoinOf; split <;> simp_all
theorem classOf_eq_none {n : Nat} : classOf n = none ↔ n ∉ [1, 2] := by unfold classOf; split <;> simp_all
theorem familyOf_eq_none {n : Nat} : familyOf n = none ↔ n ∉ [1, 2] := by unfold familyOf; split <;> simp_all
theorem readModeOf_eq_none {n : Nat} : readModeOf n = none ↔ n ∉ [1, 2, 3] := by unfold readModeOf; split <;> simp_all

theorem forcedOf_eq_none {n : Nat} : forcedOf n = none ↔ 2 < n := by
  match n with
  | 0 | 1 | 2 => simp [forcedOf]
  | n + 3 => simp [forcedOf]

theorem maskSelectionOf_eq_none {n : Nat} : maskSelectionOf n = none ↔ 2 < n := by
  match n with
  | 0 | 1 | 2 => simp [maskSelectionOf]
  | n + 3 => simp [maskSelectionOf]

theorem bitOf_cases (n : Nat) :
    (n = 0 ∧ bitOf n = some false) ∨ (n = 1 ∧ bitOf n = some true) ∨ (1 < n ∧ bitOf n = none) := by
  match n with
  | 0 | 1 => simp [bitOf]
  | n + 2 => simp [bitOf]

theorem bitOf_eq_none {n : Nat} : bitOf n = none ↔ 1 < n := by
  rcases bitOf_cases n with ⟨rfl, e⟩ | ⟨rfl, e⟩ | ⟨hn, e⟩
  · simp [e]
  · simp [e]
  · exact iff_of_true e hn

theorem selectionOf_cases (n : Nat) : (n = 0 ∧ selectionOf n = some .keep) ∨ (n = 1 ∧ selectionOf n = some .write) ∨
    (n = 2 ∧ selectionOf n = some .makeAbsent) ∨ (2 < n ∧ selectionOf n = none) := by
  match n with
  | 0 | 1 | 2 => simp [selectionOf]
  | n + 3 => simp [selectionOf]

theorem enabledOf_cases (n : Nat) : (n = 1 ∧ enabledOf n = some true) ∨ (n = 2 ∧ enabledOf n = some false) ∨
    (n ∉ [1, 2] ∧ enabledOf n = none) := by
  match n with
  | 0 | 1 | 2 => simp [enabledOf]
  | n + 3 => simp [enabledOf]

theorem rejoinOf_cases (n : Nat) : (n = 1 ∧ rejoinOf n = some .eager) ∨ (n = 2 ∧ rejoinOf n = some .hold) ∨
    (n ∉ [1, 2] ∧ rejoinOf n = none) := by
  match n with
  | 0 | 1 | 2 => simp [rejoinOf]
  | n + 3 => simp [rejoinOf]

theorem dropVerdictOf_cases (n : Nat) : (n = 2 ∧ dropVerdictOf n = some .discard) ∨ (n = 3 ∧ dropVerdictOf n = some .control) ∨
    (n ∉ [2, 3] ∧ dropVerdictOf n = none) := by
  match n with
  | 0 | 1 | 2 | 3 => simp [dropVerdictOf]
  | n + 4 => simp [dropVerdictOf]

theorem whenSelected_eq_none {α : Type} {b : Bool} {v : Option α} : whenSelected b v = none ↔ b = true ∧ v = none := by
  cases b <;> simp [whenSelected]

theorem exitIdOf_eq_none {w : Word} : exitIdOf w = none ↔ 8191 < bits w 31 16 := atMost_eq_none
theorem setIdOf_eq_none {w : Word} : setIdOf w = none ↔ 4095 < bits w 31 16 := atMost_eq_none

theorem vlanOf_eq_none {v : Nat} : vlanOf v = none ↔ badVlan v := by
  simp only [vlanOf, badVlan, ite_eq_right_iff, reduceCtorEq, imp_false]
  omega

theorem mtuOf_eq_none {v : Nat} : mtuOf v = none ↔ badMtu v := by
  simp only [mtuOf, badMtu, ite_eq_right_iff, reduceCtorEq, imp_false]
  omega

theorem weightOf_eq_none {w : Word} : weightOf w = none ↔ badWeight w := by
  simp only [weightOf, badWeight, ite_eq_right_iff, reduceCtorEq, imp_false]
  omega

theorem memberEntryOf_eq_none {w : Word} : memberEntryOf w = none ↔ 8191 < bits w 31 16 ∨ badWeight w := by
  rw [← exitIdOf_eq_none, ← weightOf_eq_none, memberEntryOf]
  cases exitIdOf w <;> cases weightOf w <;> simp

theorem readAll_eq_none {α β : Type} {f : α → Option β} {l : List α} : readAll f l = none ↔ ∃ x ∈ l, f x = none := by
  induction l with
  | nil => simp [readAll]
  | cons x xs ih => cases hx : f x <;> simp [readAll, hx, ih]

theorem targetOf_eq_none {w : Word} : targetOf w = none ↔ badTarget w := by
  unfold targetOf badTarget
  split <;> simp_all [atMost_eq_none, Config.maxSetId, Config.maxExitId]

/-! ### The identity group (R19) -/

theorem familyOf_cases (n : Nat) : (n = 1 ∧ familyOf n = some .narrow) ∨ (n = 2 ∧ familyOf n = some .wide) ∨
    (n ∉ [1, 2] ∧ familyOf n = none) := by
  match n with
  | 0 | 1 | 2 => simp [familyOf]
  | n + 3 => simp [familyOf]

theorem familyFor_eq_none {ps : List Word} {others : Nat} : familyFor ps others (param ps 0) = none ↔ badFamily ps others := by
  unfold familyFor badFamily
  rcases familyOf_cases (bits (param ps 0) 23 16) with ⟨hb, hf⟩ | ⟨hb, hf⟩ | ⟨hb, hf⟩
  · by_cases hl : ps.length = 1 + others <;> simp [hb, hl, Family.keyWords, familyOf]
  · by_cases hl : ps.length = 4 + others <;> simp [hb, hl, Family.keyWords, familyOf]
  · simp only [List.mem_cons, List.not_mem_nil, or_false, not_or] at hb
    simp [hb, hf]

theorem familyFor_cases {ps : List Word} {others : Nat} {f : Family} (h : familyFor ps others (param ps 0) = some f) :
    (f = .narrow ∧ bits (param ps 0) 23 16 = 1) ∨ (f = .wide ∧ bits (param ps 0) 23 16 = 2) := by
  unfold familyFor familyOf at h
  split at h <;> simp at h
  · exact .inl ⟨h.2.symm, ‹_›⟩
  · exact .inr ⟨h.2.symm, ‹_›⟩

theorem identityOf_eq_none {ps : List Word} {others : Nat} : identityOf ps others = none ↔ badIdentity ps others := by
  unfold identityOf badIdentity
  rw [← familyFor_eq_none]
  rcases hd : inRange 16 (bits (param ps 0) 31 24) with _ | d
  · have := inRange_eq_none.mp hd
    exact iff_of_true rfl (.inl this)
  · have hd' : ¬ 15 < bits (param ps 0) 31 24 := fun h => by simp [inRange_eq_none.mpr h] at hd
    rcases hf : familyFor ps others (param ps 0) with _ | f
    · simp
    · rcases familyFor_cases hf with ⟨rfl, hb⟩ | ⟨rfl, hb⟩
      · by_cases hl : bits (param ps 0) 15 8 ≤ 32 <;> simp [hb, hd', atMost, Family.width, hl, Nat.lt_of_not_le]
      · by_cases hl : bits (param ps 0) 15 8 ≤ 128 <;> simp [hb, hd', atMost, Family.width, hl, Nat.lt_of_not_le]

theorem identityOf_after {ps : List Word} {others : Nat} {i : Identity} (h : identityOf ps others = some i) :
    i.after = identityWords ps := by
  simp only [identityOf, Option.bind_eq_bind, Option.bind_eq_some_iff, Option.some.injEq] at h
  obtain ⟨d, -, f, hf, len, -, rfl⟩ := h
  rcases familyFor_cases hf with ⟨rfl, hb⟩ | ⟨rfl, hb⟩ <;>
    simp [Identity.after, Identity.family, keyAt, Key.family, Family.keyWords, identityWords, hb]

/-! ### The fields of each command -/

theorem bind_eq_none {α β : Type} {x : Option α} {f : α → Option β} :
    x.bind f = none ↔ x = none ∨ ∃ a, x = some a ∧ f a = none := by
  cases x <;> simp

/-- The reads that come after one that does not matter to them fail as they do by themselves. -/
theorem none_or_some_and {α : Type} {x : Option α} {Q : Prop} : (x = none ∨ (∃ a, x = some a) ∧ Q) ↔ x = none ∨ Q := by
  cases x <;> simp

/-- A selection that is read, with what its value leads to. -/
theorem none_or_bitOf {n : Nat} {Q : Bool → Prop} :
    (bitOf n = none ∨ ∃ b, bitOf n = some b ∧ Q b) ↔ 1 < n ∨ (n = 0 ∧ Q false) ∨ (n = 1 ∧ Q true) := by
  match n with
  | 0 | 1 => simp [bitOf]
  | n + 2 => simp [bitOf]

@[inherit_doc none_or_bitOf] theorem none_or_selectionOf {n : Nat} {Q : Selection → Prop} :
    (selectionOf n = none ∨ ∃ x, selectionOf n = some x ∧ Q x) ↔
      2 < n ∨ (n = 0 ∧ Q .keep) ∨ (n = 1 ∧ Q .write) ∨ (n = 2 ∧ Q .makeAbsent) := by
  match n with
  | 0 | 1 | 2 => simp [selectionOf]
  | n + 3 => simp [selectionOf]

section
variable {ps : List Word}

theorem exitCreateFields_eq_none : exitCreateFields ps = none ↔ badArgs .exitCreate ps := by
  simp only [exitCreateFields, Option.bind_eq_bind, bind_eq_none, exists_and_right, none_or_some_and, reduceCtorEq, or_false]
  simp only [exitIdOf_eq_none, enabledOf_eq_none, inRange_eq_none, whenSelected_eq_none, vlanOf_eq_none, mtuOf_eq_none, badArgs]
  grind [bitOf_cases]

theorem exitChangeFields_eq_none : exitChangeFields ps = none ↔ badArgs .exitChange ps := by
  simp only [exitChangeFields, Option.bind_eq_bind, bind_eq_none, exists_and_right, none_or_some_and, reduceCtorEq, or_false]
  simp only [none_or_bitOf, none_or_selectionOf]
  simp only [exitIdOf_eq_none, inRange_eq_none, whenSelected_eq_none, vlanOf_eq_none,
    mtuOf_eq_none, bitOf_eq_none, badArgs]
  simp
  grind

theorem exitReadFields_eq_none : exitReadFields ps = none ↔ badArgs .exitRead ps := by
  simp only [exitReadFields, Option.bind_eq_bind, bind_eq_none, exists_and_right, none_or_some_and, reduceCtorEq, or_false]
  simp only [exitIdOf_eq_none, atMost_eq_none, badArgs, Config.maxSetId]

theorem setCreateFields_eq_none : setCreateFields ps = none ↔ badArgs .setCreate ps := by
  simp only [setCreateFields, Option.bind_eq_bind, bind_eq_none, exists_and_right, none_or_some_and, reduceCtorEq, or_false]
  simp only [setIdOf_eq_none, rejoinOf_eq_none, dropVerdictOf_eq_none, whenSelected_eq_none, atMost_eq_none, readAll_eq_none,
    memberEntryOf_eq_none, badArgs, Config.maxSetId]
  grind [bitOf_cases]

theorem setChangeFields_eq_none : setChangeFields ps = none ↔ badArgs .setChange ps := by
  simp only [setChangeFields, Option.bind_eq_bind, bind_eq_none, exists_and_right, none_or_some_and, reduceCtorEq, or_false]
  simp only [none_or_bitOf, none_or_selectionOf]
  simp only [setIdOf_eq_none, rejoinOf_eq_none, dropVerdictOf_eq_none, whenSelected_eq_none,
    atMost_eq_none, badArgs, Config.maxSetId]
  simp
  grind

theorem memberAddFields_eq_none : memberAddFields ps = none ↔ badArgs .memberAdd ps := by
  simp only [memberAddFields, Option.bind_eq_bind, bind_eq_none, exists_and_right, none_or_some_and, reduceCtorEq, or_false]
  simp only [setIdOf_eq_none, memberEntryOf_eq_none, badArgs]

theorem probeFields_eq_none : probeFields ps = none ↔ badArgs .probe ps := by
  simp only [probeFields, Option.bind_eq_bind, bind_eq_none, exists_and_right, none_or_some_and, reduceCtorEq, or_false]
  simp only [inRange_eq_none, familyFor_eq_none, atMost_eq_none, badArgs]
  grind [bitOf_cases]

theorem setParametersFields_eq_none : setParametersFields ps = none ↔ badArgs .setParameters ps := by
  simp only [setParametersFields, Option.bind_eq_bind, bind_eq_none, exists_and_right, none_or_some_and, reduceCtorEq, or_false]
  simp only [whenSelected_eq_none, atMost_eq_none, badArgs, Config.maxHoldDown]
  grind [bitOf_cases]

theorem routeAddFields_eq_none {i : Identity} : routeAddFields ps i = none ↔
    badTarget (param ps i.after) ∨ bits (param ps (i.after + 1)) 31 24 ∉ [1, 2] := by
  simp only [routeAddFields, attrClass, Option.bind_eq_bind, bind_eq_none, exists_and_right, none_or_some_and, reduceCtorEq, or_false]
  simp only [targetOf_eq_none, classOf_eq_none]

theorem routeChangeFields_eq_none {i : Identity} : routeChangeFields ps i = none ↔
    (bits (param ps i.after) 0 0 = 1 ∧ badTarget (param ps (i.after + 1))) ∨
      (bits (param ps i.after) 1 1 = 1 ∧ bits (param ps (i.after + 2)) 31 24 ∉ [1, 2]) := by
  simp only [routeChangeFields, attrClass, Option.bind_eq_bind, bind_eq_none, exists_and_right, none_or_some_and, reduceCtorEq, or_false]
  simp only [whenSelected_eq_none, targetOf_eq_none, classOf_eq_none, selected, beq_iff_eq]

/-- The filter's fields that SURVEY's argument list refuses (R131). -/
def badFilter (ps : List Word) : Prop :=
  let given := fun b => bits (param ps 0) b b = 1
  let family := bits (param ps 1) 23 16
  (given 8 ∧ 15 < bits (param ps 1) 31 24) ∨ (given 9 ∧ family ∉ [1, 2]) ∨
  (given 10 ∧ (¬ given 9 ∨ (family = 1 ∧ 32 < bits (param ps 0) 7 0) ∨ (family = 2 ∧ 128 < bits (param ps 0) 7 0))) ∨
  (given 11 ∧ badTarget (param ps 2)) ∨ (given 12 ∧ bits (param ps 1) 15 8 ∉ [1, 2])

/-- The action that it refuses, with its new target (R131). -/
def badAction (ps : List Word) : Prop :=
  let action := bits (param ps 0) 23 16
  action ∉ [1, 2, 3, 4, 5] ∨ (action = 3 ∧ (bits (param ps 3) 31 24 ∉ [1, 2] ∨ badTarget (param ps 3))) ∨
    (action ≠ 3 ∧ bits (param ps 3) 31 24 ≠ 0)

theorem badSurvey_iff : badSurvey ps ↔ badFilter ps ∨ badAction ps := by
  simp only [badSurvey, badFilter, badAction, or_assoc]

theorem coverOf_eq_none {family : Option Family} : coverOf ps family = none ↔
    family = none ∨ (family = some .narrow ∧ 32 < bits (param ps 0) 7 0) ∨ (family = some .wide ∧ 128 < bits (param ps 0) 7 0) := by
  rcases family with _ | _ | _ <;>
    simp only [coverOf, Option.bind_eq_bind, bind_eq_none, Option.some.injEq, exists_eq_left', atMost_eq_none, Family.width] <;>
    simp

/-- The filter's family when it is given, with what it leads to. -/
theorem none_or_givenFamily {given : Bool} {n : Nat} {Q : Option Family → Prop} :
    (whenSelected given (familyOf n) = none ∨ ∃ f, whenSelected given (familyOf n) = some f ∧ Q f) ↔
      (given = false ∧ Q none) ∨
        (given = true ∧ (n ∉ [1, 2] ∨ (n = 1 ∧ Q (some .narrow)) ∨ (n = 2 ∧ Q (some .wide)))) := by
  cases given with
  | false => simp [whenSelected]
  | true =>
    match n with
    | 0 | 1 | 2 => simp [whenSelected, familyOf]
    | n + 3 => simp [whenSelected, familyOf]

theorem filterOf_eq_none : filterOf ps = none ↔ badFilter ps := by
  simp only [filterOf, Option.bind_eq_bind, bind_eq_none, exists_and_right, none_or_some_and, reduceCtorEq, or_false]
  simp only [none_or_givenFamily]
  simp only [whenSelected_eq_none, inRange_eq_none, coverOf_eq_none, targetOf_eq_none, classOf_eq_none, present, beq_iff_eq,
    badFilter]
  simp
  grind

theorem targetOf_cases (w : Word) : (badTarget w ∧ targetOf w = none) ∨
    (bits w 31 24 = 1 ∧ ¬ badTarget w ∧ ∃ i, targetOf w = some (.pathSet i)) ∨
    (bits w 31 24 = 2 ∧ ¬ badTarget w ∧ ∃ i, targetOf w = some (.exit i)) ∨
    (bits w 31 24 = 3 ∧ targetOf w = some .discard) ∨ (bits w 31 24 = 4 ∧ targetOf w = some .control) := by
  by_cases hb : badTarget w
  · exact .inl ⟨hb, targetOf_eq_none.mpr hb⟩
  · have hn := mt targetOf_eq_none.mp hb
    obtain ⟨hk, hset, hexit⟩ := not_or.mp hb |>.imp_right not_or.mp
    simp only [List.mem_cons, List.not_mem_nil, or_false, not_not] at hk
    rcases hk with hk | hk | hk | hk <;>
      simp_all [targetOf, atMost, badTarget, Config.maxSetId, Config.maxExitId]

theorem actionOf_eq_none : actionOf ps = none ↔ badAction ps := by
  unfold badAction actionOf
  by_cases h3 : bits (param ps 0) 23 16 = 3
  · simp only [h3, if_true]
    rcases targetOf_cases (param ps 3) with ⟨hb, ht⟩ | ⟨hk, hb, i, ht⟩ | ⟨hk, hb, i, ht⟩ | ⟨hk, ht⟩ | ⟨hk, ht⟩ <;> simp [*]
  · simp only [h3, if_false]
    by_cases h0 : bits (param ps 3) 31 24 = 0
    · simp only [h0, ne_eq, not_true, if_false]
      split <;> simp_all
    · exact iff_of_true (if_pos h0) (.inr (.inr ⟨h3, h0⟩))

theorem none_or_atMost {limit v : Nat} {Q : Nat → Prop} :
    (atMost limit v = none ∨ ∃ a, atMost limit v = some a ∧ Q a) ↔ limit < v ∨ Q v := by
  by_cases h : v ≤ limit
  · simp [atMost, h]
  · simp [atMost, h, Nat.lt_of_not_le h]

theorem jobSpecOf_eq_none : jobSpecOf ps = none ↔ badArgs .jobStart ps := by
  unfold jobSpecOf
  split
  · rename_i h
    obtain ⟨hk, hl⟩ := h
    simp only [Option.bind_eq_bind, bind_eq_none, exists_and_right, none_or_some_and, reduceCtorEq, or_false]
    simp [filterOf_eq_none, actionOf_eq_none, badArgs, badSurvey_iff, hk, hl]
  · split
    · rename_i h
      obtain ⟨hk, hl⟩ := h
      simp only [Option.bind_eq_bind, bind_eq_none, none_or_atMost, ite_eq_right_iff, reduceCtorEq, imp_false, badArgs]
      simp [hk, hl, Config.maxSetId]
    · exact iff_of_true rfl (.inl ⟨‹_›, ‹_›⟩)

end

end Sys2Proof.Machine
end

section
/-! PROOFS. What each host command's work replies: a refusal, whose check is the command's own when it comes before its claims;
its acceptance; or the refusal of a reference claim (R171, R177). -/

namespace Sys2Proof.Machine

-- The proofs are elaborated one after another: each thread counts against the memory in which the text is checked.
set_option Elab.async false

/-! ### Replies -/

/-- A reply that, when it answers, answers OK. -/
def Reply.accepts (r : Reply) : Prop := ∀ a, r.2 = .answered a → a.code = .ok

theorem answerOk_accepts (s : State) (ws : List Word) : (answerOk s ws).accepts := fun _ h => by cases h; rfl

theorem accepts_of_left {r : Reply} (h : ∀ a, r.2 ≠ .answered a) : r.accepts := fun a ha => absurd ha (h a)

theorem State.withReads_accepts {s : State} {ports : List (Fin 64)} {work : List Bool → State → Reply}
    (h : ∀ reads t, (work reads t).accepts) : (s.withReads ports work).accepts := by
  rcases s.withReads_cases ports work with ⟨-, he⟩ | ⟨-, he⟩ <;> rw [he]
  · exact h _ _
  · exact accepts_of_left nofun

/-- What the work of a command can reply. A refusal that needs no claim is that of a check that fails. -/
def replies (c : Instr) (code : Nat) (ps : List Word) (s : State) (r : Reply) : Prop :=
  (∃ x, r = refuse s x ∧ (checkedBeforeClaims code (.answered ⟨x, []⟩) = true → checkFails c ps s x)) ∨ r.accepts ∨
    ((c = .routeAdd ∨ c = .routeChange) ∧ ∃ x, r = refuse (s.setPt (s.pt.withdraw .reference)) x ∧
      checkedBeforeClaims code (.answered ⟨x, []⟩) = false)

section
variable {c : Instr} {code : Nat} {ps : List Word} {s : State}

theorem replies_badArg (h : badArgs c ps) : replies c code ps s (refuse s .badArg) := .inl ⟨.badArg, rfl, fun _ => h⟩

theorem replies_checked {x : ResultCode} (h : checkFails c ps s x) : replies c code ps s (refuse s x) := .inl ⟨x, rfl, fun _ => h⟩

theorem replies_within {x : ResultCode} (h : checkedBeforeClaims code (.answered ⟨x, []⟩) = false := by rfl) :
    replies c code ps s (refuse s x) := .inl ⟨x, rfl, fun k => absurd k (by simp [h])⟩

theorem replies_accepts {r : Reply} (h : r.accepts) : replies c code ps s r := .inr (.inl h)

theorem replies_ok (t : State) (ws : List Word) : replies c code ps s (answerOk t ws) := replies_accepts (answerOk_accepts t ws)

theorem replies_answerRoute (r : Option Route) (h : checkedBeforeClaims code (.answered ⟨.absent, []⟩) = false := by rfl) :
    replies c code ps s (answerRoute s r) := by
  cases r with
  | none => exact replies_within h
  | some r => exact replies_ok _ _

/-- The identity's checks of a command that names a route by it (R19). -/
theorem replies_withIdentity {α : Type} {others : Nat} {more : Identity → Option α} {work : Identity → α → Reply}
    (hc : identityOthers c ps = some others) (hid : badIdentity ps others → badArgs c ps)
    (hmore : ∀ i, identityOf ps others = some i → more i = none → badArgs c ps)
    (hw : ∀ i a, identityOf ps others = some i → replies c code ps s (work i a)) :
    replies c code ps s (withIdentity ps others more s work) := by
  unfold withIdentity
  split
  · exact replies_badArg (hid (identityOf_eq_none.mp ‹_›))
  · rename_i i hi
    split
    · exact replies_badArg (hmore i hi ‹_›)
    · split
      · exact hw i _ hi
      · rename_i hk
        exact replies_checked (.inl ⟨others, i, hc, hi, by simpa using hk⟩)

end

/-! ### Route commands -/

section
variable (ps : List Word) (s : State)

theorem domainSetWork_replies : replies .domainSet 0x10 ps s (domainSetWork ps s) := by
  by_cases h : badArgs .domainSet ps
  · rw [domainSetWork_badArg s h]; exact replies_badArg h
  · unfold domainSetWork
    dsimp only
    split
    · exact replies_ok _ _
    · rename_i hno
      refine absurd ?_ h
      simp only [badArgs, ← enabledOf_eq_none, ← dropVerdictOf_eq_none, ← Nat.succ_le_iff, ← inRange_eq_none]
      by_contra hall
      simp only [not_or, Option.ne_none_iff_exists'] at hall
      obtain ⟨⟨d, hd⟩, ⟨en, hen⟩, miss, hmiss⟩ := hall
      exact hno d en miss hd hen hmiss

theorem domainReadWork_replies : replies .domainRead 0x11 ps s (domainReadWork ps s) := by
  unfold domainReadWork
  split
  · exact replies_badArg (inRange_eq_none.mp ‹_›)
  · exact replies_ok _ _

theorem addRoute_replies {t : State} (ht : t = s ∨ t = s.setPt (s.pt.withdraw .reference)) (i : Identity)
    (a : Target × RouteClass × BitVec 16) : replies .routeAdd 0x12 ps s (addRoute i a t) := by
  have hrefuse : ∀ x, checkedBeforeClaims 0x12 (.answered ⟨x, []⟩) = false → replies .routeAdd 0x12 ps s (refuse t x) := by
    rintro x hx
    rcases ht with rfl | rfl
    · exact replies_within hx
    · exact .inr (.inr ⟨.inl rfl, x, rfl, hx⟩)
  unfold addRoute
  (repeat' split)
  · exact hrefuse _ rfl
  · exact hrefuse _ rfl
  · exact hrefuse _ rfl
  · exact replies_ok _ _

theorem changeRoute_replies {t : State} (ht : t = s ∨ t = s.setPt (s.pt.withdraw .reference)) (i : Identity) (c : RouteChange)
    (r : Route) : replies .routeChange 0x13 ps s (changeRoute i c r t) := by
  unfold changeRoute
  split
  · rcases ht with rfl | rfl
    · exact replies_within
    · exact .inr (.inr ⟨.inr rfl, _, rfl, rfl⟩)
  · exact replies_ok _ _

/-- A part that may change references is made from the state as it is, or with its reference claim taken, or is left. -/
theorem replies_withReference {c : Instr} {code : Nat} {refers : Bool} {work : State → Reply}
    (h : ∀ t, t = s ∨ t = s.setPt (s.pt.withdraw .reference) → replies c code ps s (work t)) :
    replies c code ps s (s.withReference refers work) := by
  rcases s.withReference_cases refers work with ⟨-, he⟩ | ⟨-, -, he⟩ | ⟨-, -, he⟩ <;> rw [he]
  · exact h _ (.inl rfl)
  · exact h _ (.inr rfl)
  · exact replies_accepts (accepts_of_left nofun)

theorem routeAddWork_replies : replies .routeAdd 0x12 ps s (routeAddWork ps s) := by
  refine replies_withIdentity rfl .inl (fun i hi hno => .inr ?_) fun i a _ =>
    replies_withReference ps s fun t ht => addRoute_replies ps s ht i a
  rw [← identityOf_after hi]
  exact routeAddFields_eq_none.mp hno

theorem routeChangeWork_replies : replies .routeChange 0x13 ps s (routeChangeWork ps s) := by
  refine replies_withIdentity rfl .inl (fun i hi hno => .inr ?_) fun i c _ => ?_
  · rw [← identityOf_after hi]
    exact routeChangeFields_eq_none.mp hno
  · split
    · exact replies_within
    · exact replies_withReference ps s fun t ht => changeRoute_replies ps s ht i c _

theorem routeDropWork_replies : replies .routeDrop 0x14 ps s (routeDropWork ps s) := by
  refine replies_withIdentity rfl id (fun _ _ h => nomatch h) fun i _ _ => ?_
  split
  · exact replies_within
  · exact replies_withReference ps s fun _ _ => replies_ok _ _

theorem readModeOf_cases (n : Nat) : (n = 1 ∧ readModeOf n = some .exact) ∨ (n = 2 ∧ readModeOf n = some .next) ∨
    (n = 3 ∧ readModeOf n = some .first) ∨ (n ∉ [1, 2, 3] ∧ readModeOf n = none) := by
  match n with
  | 0 | 1 | 2 | 3 => simp [readModeOf]
  | n + 4 => simp [readModeOf]

theorem routeReadWork_replies : replies .routeRead 0x15 ps s (routeReadWork ps s) := by
  unfold routeReadWork
  rcases readModeOf_cases (bits (param ps 0) 7 0) with ⟨hn, hm⟩ | ⟨hn, hm⟩ | ⟨hn, hm⟩ | ⟨hn, hm⟩ <;> rw [hm]
  · exact replies_withIdentity (if_neg (by omega)) (fun h => .inr ⟨by omega, h⟩) (fun _ _ h => nomatch h) fun _ _ _ =>
      replies_answerRoute _
  · exact replies_withIdentity (if_neg (by omega)) (fun h => .inr ⟨by omega, h⟩) (fun _ _ h => nomatch h) fun _ _ _ =>
      replies_answerRoute _
  · exact replies_answerRoute _
  · exact replies_badArg (.inl hn)

theorem routeFindWork_replies : replies .routeFind 0x16 ps s (routeFindWork ps s) := by
  unfold routeFindWork
  split
  · exact replies_answerRoute _
  · rename_i hno
    refine replies_badArg ?_
    simp only [badArgs, ← familyFor_eq_none, ← Nat.succ_le_iff, ← inRange_eq_none]
    by_contra hall
    simp only [not_or, Option.ne_none_iff_exists'] at hall
    obtain ⟨⟨d, hd⟩, f, hf⟩ := hall
    exact hno d f hd hf

/-! ### Exit commands -/

theorem exitCreateWork_replies : replies .exitCreate 0x20 ps s (exitCreateWork ps s) := by
  unfold exitCreateWork
  split
  · exact replies_badArg (exitCreateFields_eq_none.mp ‹_›)
  · split
    · exact replies_within
    · exact replies_ok _ _

theorem changeExit_replies {c : Instr} {code : Nat} (w : Option ExitWrite) (hw : w = none → badArgs c ps)
    (hcode : checkedBeforeClaims code (.answered ⟨.absent, []⟩) = false) : replies c code ps s (changeExit w s) := by
  unfold changeExit
  split
  · exact replies_badArg (hw rfl)
  · split
    · exact replies_within hcode
    · exact replies_accepts (State.withReads_accepts fun _ _ => answerOk_accepts _ _)

theorem exitChangeWork_replies : replies .exitChange 0x21 ps s (exitChangeWork ps s) :=
  changeExit_replies ps s _ (fun h => exitChangeFields_eq_none.mp (Option.map_eq_none_iff.mp h)) rfl

theorem exitEnableWork_replies : replies .exitEnable 0x22 ps s (exitEnableWork ps s) :=
  changeExit_replies ps s _ (fun h => exitIdOf_eq_none.mp (Option.map_eq_none_iff.mp h)) rfl

theorem exitDisableWork_replies : replies .exitDisable 0x23 ps s (exitDisableWork ps s) :=
  changeExit_replies ps s _ (fun h => exitIdOf_eq_none.mp (Option.map_eq_none_iff.mp h)) rfl

theorem exitDeleteWork_replies : replies .exitDelete 0x24 ps s (exitDeleteWork ps s) := by
  unfold exitDeleteWork
  (repeat' split)
  · exact replies_badArg (exitIdOf_eq_none.mp ‹_›)
  · exact replies_within
  · exact replies_within
  · exact replies_ok _ _

theorem exitReadWork_replies : replies .exitRead 0x25 ps s (exitReadWork ps s) := by
  unfold exitReadWork
  (repeat' split)
  · exact replies_badArg (exitReadFields_eq_none.mp ‹_›)
  · exact replies_within
  · exact replies_accepts (State.withReads_accepts fun _ _ => answerOk_accepts _ _)

/-! ### Path set commands -/

theorem distinctExits_eq_false {l : List (Nat × Nat)} (h : distinctExits l = false) : ¬ (l.map (·.1)).Nodup := by
  induction l with
  | nil => cases h
  | cons x xs ih =>
    intro hn
    obtain ⟨hx, hn⟩ := List.nodup_cons.mp hn
    simp only [distinctExits, Bool.and_eq_false_iff] at h
    rcases h with h | h
    · obtain ⟨y, hy, he⟩ := List.all_eq_false.mp h
      exact hx (List.mem_map.mpr ⟨y, hy, by simpa using he⟩)
    · exact ih h hn

theorem SetCreate.refusal_replies {c : SetCreate} {x : ResultCode} (hc : setCreateFields ps = some c)
    (hx : c.refusal s.pt = some x) : replies .setCreate 0x30 ps s (refuse s x) := by
  unfold SetCreate.refusal at hx
  split at hx
  · cases hx; exact replies_checked ⟨rfl, c, hc, ‹_›⟩
  · split at hx
    · rename_i hd
      cases hx; exact replies_checked ⟨rfl, c, hc, distinctExits_eq_false (by simpa using hd)⟩
    · split at hx
      · rename_i hs
        cases hx; exact replies_checked (.inl ⟨rfl, c, hc, by simpa using hs⟩)
      · split at hx
        · cases hx; exact replies_within
        · split at hx
          · cases hx; exact replies_within
          · cases hx

theorem setCreateWork_replies : replies .setCreate 0x30 ps s (setCreateWork ps s) := by
  unfold setCreateWork
  split
  · exact replies_badArg (setCreateFields_eq_none.mp ‹_›)
  · split
    · exact SetCreate.refusal_replies ps s ‹_› ‹_›
    · exact replies_accepts (State.withReads_accepts fun _ _ => answerOk_accepts _ _)

theorem setChangeWork_replies : replies .setChange 0x31 ps s (setChangeWork ps s) := by
  unfold setChangeWork
  split
  · exact replies_badArg (setChangeFields_eq_none.mp ‹_›)
  · rename_i id c hf
    split
    · rename_i hs
      exact replies_checked (.inr ⟨rfl, id, c, hf, by simpa using hs⟩)
    · (repeat' split)
      · exact replies_within
      · exact replies_within
      · exact replies_ok _ _

theorem setDeleteWork_replies : replies .setDelete 0x32 ps s (setDeleteWork ps s) := by
  unfold setDeleteWork
  (repeat' split)
  · exact replies_badArg (setIdOf_eq_none.mp ‹_›)
  · exact replies_within
  · exact replies_within
  · exact replies_ok _ _

theorem setReadWork_replies : replies .setRead 0x33 ps s (setReadWork ps s) := by
  unfold setReadWork
  (repeat' split)
  · exact replies_badArg (setIdOf_eq_none.mp ‹_›)
  · exact replies_within
  · exact replies_ok _ _

theorem memberAddRefusal_within {pt : PathTable} {id e : Nat} {x : ResultCode} (hx : memberAddRefusal pt id e = some x) :
    checkedBeforeClaims 0x34 (.answered ⟨x, []⟩) = false := by
  unfold memberAddRefusal at hx
  (repeat' split at hx) <;> cases hx <;> rfl

theorem memberAddWork_replies : replies .memberAdd 0x34 ps s (memberAddWork ps s) := by
  unfold memberAddWork
  split
  · exact replies_badArg (memberAddFields_eq_none.mp ‹_›)
  · split
    · exact replies_within (memberAddRefusal_within ‹_›)
    · exact replies_accepts (State.withReads_accepts fun _ _ => answerOk_accepts _ _)

/-- Two readers, one of which refuses. -/
theorem none_or_none {α β : Type} {x : Option α} {y : Option β} (h : ∀ a b, x = some a → y = some b → False) :
    x = none ∨ y = none := by
  cases x <;> cases y <;> simp_all

theorem memberRemoveWork_replies : replies .memberRemove 0x35 ps s (memberRemoveWork ps s) := by
  unfold memberRemoveWork
  split
  · split
    · exact replies_within
    · exact replies_ok _ _
  · exact replies_badArg ((none_or_none ‹_›).imp setIdOf_eq_none.mp exitIdOf_eq_none.mp)

theorem memberWeightWork_replies : replies .memberWeight 0x36 ps s (memberWeightWork ps s) := by
  unfold memberWeightWork
  split
  · (repeat' split)
    · exact replies_within
    · exact replies_ok _ _
    · exact replies_ok _ _
  · exact replies_badArg ((none_or_none ‹_›).imp setIdOf_eq_none.mp memberEntryOf_eq_none.mp)

theorem setRefillWork_replies : replies .setRefill 0x37 ps s (setRefillWork ps s) := by
  unfold setRefillWork
  (repeat' split)
  · exact replies_badArg (setIdOf_eq_none.mp ‹_›)
  · exact replies_within
  · exact replies_ok _ _

theorem halfOf_eq_none {n : Nat} : halfOf n = none ↔ n ∉ [1, 2] := by unfold halfOf; split <;> simp_all

theorem mapReadWork_replies : replies .mapRead 0x38 ps s (mapReadWork ps s) := by
  unfold mapReadWork
  split
  · split
    · exact replies_within
    · exact replies_ok _ _
  · exact replies_badArg ((none_or_none ‹_›).imp setIdOf_eq_none.mp halfOf_eq_none.mp)

/-! ### Port, lane and probe commands -/

theorem portForceWork_replies : replies .portForce 0x40 ps s (portForceWork ps s) := by
  unfold portForceWork
  split
  · exact replies_ok _ _
  · exact replies_badArg ((none_or_none ‹_›).imp inRange_eq_none.mp forcedOf_eq_none.mp)

theorem portReadWork_replies : replies .portRead 0x41 ps s (portReadWork ps s) := by
  unfold portReadWork
  split
  · exact replies_badArg (inRange_eq_none.mp ‹_›)
  · exact replies_accepts (accepts_of_left nofun)

theorem laneEnableWork_replies : replies .laneEnable 0x50 ps s (laneEnableWork ps s) := by
  unfold laneEnableWork
  (repeat' split)
  · exact replies_badArg (inRange_eq_none.mp ‹_›)
  · exact replies_ok _ _
  · exact replies_ok _ _

theorem laneDisableWork_replies : replies .laneDisable 0x51 ps s (laneDisableWork ps s) := by
  unfold laneDisableWork
  split
  · exact replies_badArg (inRange_eq_none.mp ‹_›)
  · split <;> exact replies_ok _ _

theorem laneReadWork_replies : replies .laneRead 0x52 ps s (laneReadWork ps s) := by
  unfold laneReadWork
  split
  · exact replies_badArg (inRange_eq_none.mp ‹_›)
  · exact replies_ok _ _

theorem laneWeightWork_replies : replies .laneWeight 0x53 ps s (laneWeightWork ps s) := by
  unfold laneWeightWork
  dsimp only
  split
  · exact replies_badArg (.inl (inRange_eq_none.mp ‹_›))
  · split
    · exact replies_ok _ _
    · refine replies_badArg (.inr ?_)
      omega

theorem probeWork_replies : replies .probe 0x60 ps s (probeWork ps s) := by
  unfold probeWork
  split
  · exact replies_badArg (probeFields_eq_none.mp ‹_›)
  · exact replies_accepts (accepts_of_left nofun)

/-! ### Job, attention and device commands -/

theorem jobStartWork_replies : replies .jobStart 0x70 ps s (jobStartWork ps s) := by
  unfold jobStartWork
  split
  · exact replies_badArg (jobSpecOf_eq_none.mp ‹_›)
  · rename_i spec hs
    split
    · rename_i hk
      exact replies_checked (.inr ⟨rfl, spec, hs, by simpa using hk⟩)
    · split
      · rename_i hno
        exact replies_checked ⟨rfl, fun n => by simpa using List.find?_eq_none.mp hno n (mem_fours n)⟩
      · split
        · exact replies_within
        · exact replies_ok _ _

theorem State.cancelProgress_accepts (t : State) (n : Fin 4) : Reply.accepts (s, t.cancelProgress n) := by
  unfold State.cancelProgress
  split
  · exact fun _ h => by cases h; rfl
  · exact accepts_of_left nofun

theorem jobCancelWork_replies : replies .jobCancel 0x71 ps s (jobCancelWork ps s) := by
  unfold jobCancelWork
  split
  · exact replies_badArg (inRange_eq_none.mp ‹_›)
  · split
    · split
      · exact replies_accepts (accepts_of_left nofun)
      · exact replies_accepts (State.cancelProgress_accepts _ _ _)
    · exact replies_within

theorem jobReadWork_replies : replies .jobRead 0x72 ps s (jobReadWork ps s) := by
  unfold jobReadWork
  split
  · exact replies_badArg (inRange_eq_none.mp ‹_›)
  · split <;> exact replies_ok _ _

theorem collectWork_replies : replies .collect 0x80 ps s (collectWork ps s) := by
  unfold collectWork
  split
  · exact replies_within
  · exact replies_ok _ _

theorem attentionMaskWork_replies : replies .attentionMask 0x81 ps s (attentionMaskWork ps s) := by
  unfold attentionMaskWork
  dsimp only
  split
  · exact replies_ok _ _
  · rename_i hno
    refine replies_badArg ?_
    simp only [badArgs, ← maskSelectionOf_eq_none]
    by_contra hall
    simp only [not_or, Option.ne_none_iff_exists'] at hall
    obtain ⟨⟨p, hp⟩, ⟨l, hl⟩, sp, hsp⟩ := hall
    exact hno p l sp hp hl hsp

theorem setParametersWork_replies : replies .setParameters 0x92 ps s (setParametersWork ps s) := by
  unfold setParametersWork
  split
  · exact replies_badArg (setParametersFields_eq_none.mp ‹_›)
  · split <;> exact replies_accepts (accepts_of_left nofun)

theorem restartWork_replies : replies .restart 0x91 ps s (restartWork ps s) := by
  rcases restartWork_cases ps s with ⟨-, he⟩ | ⟨-, -, he⟩ | ⟨-, -, he⟩ <;> rw [he] <;>
    exact replies_accepts (accepts_of_left nofun)

/-- Every host command's work replies in one of these ways. -/
theorem hostWork_replies {c : Instr} {code : Nat} (h : hostCode c = some code) : replies c code ps s (hostWork c ps s) := by
  cases c <;> simp only [hostCode, Option.some.injEq, reduceCtorEq] at h <;> subst h
  case domainSet => exact domainSetWork_replies ps s
  case domainRead => exact domainReadWork_replies ps s
  case routeAdd => exact routeAddWork_replies ps s
  case routeChange => exact routeChangeWork_replies ps s
  case routeDrop => exact routeDropWork_replies ps s
  case routeRead => exact routeReadWork_replies ps s
  case routeFind => exact routeFindWork_replies ps s
  case exitCreate => exact exitCreateWork_replies ps s
  case exitChange => exact exitChangeWork_replies ps s
  case exitEnable => exact exitEnableWork_replies ps s
  case exitDisable => exact exitDisableWork_replies ps s
  case exitDelete => exact exitDeleteWork_replies ps s
  case exitRead => exact exitReadWork_replies ps s
  case setCreate => exact setCreateWork_replies ps s
  case setChange => exact setChangeWork_replies ps s
  case setDelete => exact setDeleteWork_replies ps s
  case setRead => exact setReadWork_replies ps s
  case memberAdd => exact memberAddWork_replies ps s
  case memberRemove => exact memberRemoveWork_replies ps s
  case memberWeight => exact memberWeightWork_replies ps s
  case setRefill => exact setRefillWork_replies ps s
  case mapRead => exact mapReadWork_replies ps s
  case portForce => exact portForceWork_replies ps s
  case portRead => exact portReadWork_replies ps s
  case laneEnable => exact laneEnableWork_replies ps s
  case laneDisable => exact laneDisableWork_replies ps s
  case laneRead => exact laneReadWork_replies ps s
  case laneWeight => exact laneWeightWork_replies ps s
  case probe => exact probeWork_replies ps s
  case jobStart => exact jobStartWork_replies ps s
  case jobCancel => exact jobCancelWork_replies ps s
  case jobRead => exact jobReadWork_replies ps s
  case collect => exact collectWork_replies ps s
  case attentionMask => exact attentionMaskWork_replies ps s
  case identify => exact replies_ok s _
  case restart => exact restartWork_replies ps s
  case setParameters => exact setParametersWork_replies ps s
  case readParameters => exact replies_accepts (accepts_of_left nofun)
  case readSpace => exact replies_ok s _

end

end Sys2Proof.Machine
end

section
/-! PROOFS. When the step of a host command takes place, waits, or is refused (R16, R36, R84, R171, R177). -/

namespace Sys2Proof.Machine

-- The proofs are elaborated one after another: each thread counts against the memory in which the text is checked.
set_option Elab.async false

/-! ### Checks come before everything -/

section
variable {c : Instr} {code : Nat} {ps : List Word} {s : State}

/-- The result codes of refusals that need no claim are those of checks. -/
theorem replies_check {r : Reply} (h : replies c code ps s r) (hr : checkedBeforeClaims code r.2 = true) :
    ∃ x, r = refuse s x ∧ checkFails c ps s x := by
  rcases h with ⟨x, rfl, hx⟩ | h | ⟨-, x, rfl, hx⟩
  · exact ⟨x, rfl, hx hr⟩
  · rcases hp : r.2 with _ | _ | _ | _ | _ | _ | _ | _ | _ | _ | _ | _ | ⟨code, ws⟩ <;> rw [hp] at hr
    case answered =>
      cases h _ hp
      cases hr
    all_goals cases hr
  · simp [hx] at hr

theorem withIdentity_checked {α : Type} {others : Nat} {more : Identity → Option α} {work : Identity → α → Reply} {i : Identity}
    (hi : identityOf ps others = some i) (hk : i.keyOk = false) :
    checkedBeforeClaims code (withIdentity ps others more s work).2 = true := by
  unfold withIdentity
  rw [hi]
  dsimp only
  split
  · rfl
  · rw [hk]; rfl

theorem withIdentity_badArg {α : Type} {others : Nat} {more : Identity → Option α} {work : Identity → α → Reply}
    (h : badIdentity ps others ∨ ∀ i, identityOf ps others = some i → more i = none) :
    withIdentity ps others more s work = refuse s .badArg := by
  unfold withIdentity
  split
  · rfl
  · rename_i i hi
    rcases h with h | h
    · rw [identityOf_eq_none.mpr h] at hi
      cases hi
    · rw [h i hi]

end

section
variable {ps : List Word} (s : State)

theorem routeAddWork_badArg (h : badArgs .routeAdd ps) : routeAddWork ps s = refuse s .badArg :=
  withIdentity_badArg (h.imp_right fun h _ hi => routeAddFields_eq_none.mpr (identityOf_after hi ▸ h))

theorem routeChangeWork_badArg (h : badArgs .routeChange ps) : routeChangeWork ps s = refuse s .badArg :=
  withIdentity_badArg (h.imp_right fun h _ hi => routeChangeFields_eq_none.mpr (identityOf_after hi ▸ h))

theorem routeDropWork_badArg (h : badArgs .routeDrop ps) : routeDropWork ps s = refuse s .badArg :=
  withIdentity_badArg (more := fun _ => some ()) (.inl h)

theorem routeReadWork_badArg (h : badArgs .routeRead ps) : routeReadWork ps s = refuse s .badArg := by
  unfold routeReadWork
  rcases readModeOf_cases (bits (param ps 0) 7 0) with ⟨hn, hm⟩ | ⟨hn, hm⟩ | ⟨hn, hm⟩ | ⟨hn, hm⟩ <;> rw [hm]
  · exact withIdentity_badArg (.inl (h.resolve_left (by simp [hn])).2)
  · exact withIdentity_badArg (.inl (h.resolve_left (by simp [hn])).2)
  · exact absurd (h.resolve_left (by simp [hn])).1 (by simp [hn])

theorem routeFindWork_badArg (h : badArgs .routeFind ps) : routeFindWork ps s = refuse s .badArg := by
  unfold routeFindWork
  rcases h with h | h
  · rw [inRange_eq_none.mpr h]
  · rw [familyFor_eq_none.mpr h]
    split
    · cases ‹_ = some _›
    · rfl

theorem changeExit_badArg {w : Option ExitWrite} (h : w = none) : changeExit w s = refuse s .badArg := by
  rw [h]; rfl

theorem memberRemoveWork_badArg (h : badArgs .memberRemove ps) : memberRemoveWork ps s = refuse s .badArg := by
  unfold memberRemoveWork
  rcases h with h | h
  · rw [setIdOf_eq_none.mpr h]
  · rw [exitIdOf_eq_none.mpr h]
    split
    · cases ‹none = some _›
    · rfl

theorem memberWeightWork_badArg (h : badArgs .memberWeight ps) : memberWeightWork ps s = refuse s .badArg := by
  unfold memberWeightWork
  rcases h with h | h
  · rw [setIdOf_eq_none.mpr h]
  · rw [memberEntryOf_eq_none.mpr h]
    split
    · cases ‹none = some _›
    · rfl

theorem mapReadWork_badArg (h : badArgs .mapRead ps) : mapReadWork ps s = refuse s .badArg := by
  unfold mapReadWork
  rcases h with h | h
  · rw [setIdOf_eq_none.mpr h]
  · rw [halfOf_eq_none.mpr h]
    split
    · cases ‹none = some _›
    · rfl

theorem portForceWork_badArg (h : badArgs .portForce ps) : portForceWork ps s = refuse s .badArg := by
  unfold portForceWork
  rcases h with h | h
  · rw [inRange_eq_none.mpr h]
  · rw [forcedOf_eq_none.mpr h]
    split
    · cases ‹none = some _›
    · rfl

theorem attentionMaskWork_badArg (h : badArgs .attentionMask ps) : attentionMaskWork ps s = refuse s .badArg := by
  unfold attentionMaskWork
  dsimp only
  split
  · rename_i p l sp hp hl hsp
    rcases h with h | h | h
    · rw [maskSelectionOf_eq_none.mpr h] at hp; cases hp
    · rw [maskSelectionOf_eq_none.mpr h] at hl; cases hl
    · rw [maskSelectionOf_eq_none.mpr h] at hsp; cases hsp
  · rfl

theorem laneWeightWork_badArg (h : badArgs .laneWeight ps) : laneWeightWork ps s = refuse s .badArg := by
  unfold laneWeightWork
  dsimp only
  split
  · rfl
  · rename_i n hn
    rcases h with h | h
    · rw [inRange_eq_none.mpr h] at hn; cases hn
    · exact if_neg (by omega)

/-- An argument that the command's rule refuses is answered BADARG by the first of its checks. -/
theorem hostWork_badArg {c : Instr} {code : Nat} (hc : hostCode c = some code) (h : badArgs c ps) :
    hostWork c ps s = refuse s .badArg := by
  cases c <;> simp only [hostCode, reduceCtorEq] at hc
  case domainSet => exact domainSetWork_badArg s h
  case domainRead => exact domainReadWork_badArg s h
  case routeAdd => exact routeAddWork_badArg s h
  case routeChange => exact routeChangeWork_badArg s h
  case routeDrop => exact routeDropWork_badArg s h
  case routeRead => exact routeReadWork_badArg s h
  case routeFind => exact routeFindWork_badArg s h
  case exitCreate => simp [hostWork, exitCreateWork, exitCreateFields_eq_none.mpr h]
  case exitChange => exact changeExit_badArg s (Option.map_eq_none_iff.mpr (exitChangeFields_eq_none.mpr h))
  case exitEnable | exitDisable => exact changeExit_badArg s (Option.map_eq_none_iff.mpr (exitIdOf_eq_none.mpr h))
  case exitDelete => simp [hostWork, exitDeleteWork, exitIdOf_eq_none.mpr h]
  case exitRead => simp [hostWork, exitReadWork, exitReadFields_eq_none.mpr h]
  case setCreate => simp [hostWork, setCreateWork, setCreateFields_eq_none.mpr h]
  case setChange => simp [hostWork, setChangeWork, setChangeFields_eq_none.mpr h]
  case setDelete => simp [hostWork, setDeleteWork, setIdOf_eq_none.mpr h]
  case setRead => simp [hostWork, setReadWork, setIdOf_eq_none.mpr h]
  case memberAdd => simp [hostWork, memberAddWork, memberAddFields_eq_none.mpr h]
  case memberRemove => exact memberRemoveWork_badArg s h
  case memberWeight => exact memberWeightWork_badArg s h
  case setRefill => simp [hostWork, setRefillWork, setIdOf_eq_none.mpr h]
  case mapRead => exact mapReadWork_badArg s h
  case portForce => exact portForceWork_badArg s h
  case portRead => simp [hostWork, portReadWork, inRange_eq_none.mpr h]
  case laneEnable => simp [hostWork, laneEnableWork, inRange_eq_none.mpr h]
  case laneDisable => simp [hostWork, laneDisableWork, inRange_eq_none.mpr h]
  case laneRead => simp [hostWork, laneReadWork, inRange_eq_none.mpr h]
  case laneWeight => exact laneWeightWork_badArg s h
  case probe => simp [hostWork, probeWork, probeFields_eq_none.mpr h]
  case jobStart => simp [hostWork, jobStartWork, jobSpecOf_eq_none.mpr h]
  case jobCancel => simp [hostWork, jobCancelWork, inRange_eq_none.mpr h]
  case jobRead => simp [hostWork, jobReadWork, inRange_eq_none.mpr h]
  case attentionMask => exact attentionMaskWork_badArg s h
  case setParameters => simp [hostWork, setParametersWork, setParametersFields_eq_none.mpr h]
  case collect | identify | restart | readParameters | readSpace => exact h.elim

end

/-- Settles O9: the first check of every command is that of its arguments, and a command that replies another code than OK
has refused. -/
theorem refusedCommandsHaveNoEffect : Obligations.RefusedCommandsHaveNoEffect := by
  refine ⟨fun c code s ps hc hh hb => exec_checked hc hh (hostWork_badArg s hc hb) rfl, ?_⟩
  intro c code s t ws p a hc hcu hp ht hta hne
  rw [← Progress.unapplied_iff] at hp
  rw [exec_host hc] at ht
  obtain rfl := Host.Outcome.next.inj ht
  rcases runCommand_cases code (hostWork c) s with he | ⟨w, ps, q, -, hcu', -, -, ⟨-, he⟩ | ⟨-, -, he⟩⟩ <;> rw [he] at hta ⊢
  · rw [hcu] at hta
    obtain ⟨-, rfl⟩ := CommandUnit.busy.inj hta
    cases hp
  · obtain ⟨rfl, hreply⟩ := CommandUnit.busy.inj (hta : CommandUnit.busy (w :: ps) _ = _)
    rcases hostWork_replies ps s hc with ⟨x, hr, -⟩ | hacc | ⟨hroute, x, hr, -⟩
    · rw [hr] at hreply ⊢
      obtain rfl := Progress.answered.inj hreply
      exact ⟨rfl, .inl (by simp [State.progressTo, State.answered, State.withProgress, hcu, refuse, Progress.waits])⟩
    · exact absurd (hacc a hreply) hne
    · rw [hr] at hreply ⊢
      obtain rfl := Progress.answered.inj hreply
      exact ⟨rfl, .inr ⟨hroute, by simp [State.progressTo, State.answered, State.withProgress, hcu, refuse, Progress.waits]⟩⟩
  · cases hta

/-! ### The checks that fail (R2, R44, R45, R132) -/

theorem not_distinctExits {l : List (Nat × Nat)} (h : ¬ (l.map (·.1)).Nodup) : distinctExits l = false := by
  by_contra hd
  exact h (nodup_of_distinctExits (by simpa using hd))

section
variable {ps : List Word} {s : State}

theorem setCreateWork_checked {c : SetCreate} (hc : setCreateFields ps = some c)
    (h : 16 < c.entries.length ∨ ¬ (c.entries.map (·.1)).Nodup ∨ c.backup = some c.id) :
    checkedBeforeClaims 0x30 (setCreateWork ps s).2 = true := by
  by_cases hl : 16 < c.entries.length
  · simp [setCreateWork, hc, SetCreate.refusal, Config.maxMembers, hl, checkedBeforeClaims]
  · by_cases hd : (c.entries.map (·.1)).Nodup
    · have hs := (h.resolve_left hl).resolve_left (not_not.mpr hd)
      cases hdist : distinctExits c.entries <;>
        simp [setCreateWork, hc, SetCreate.refusal, Config.maxMembers, hl, hdist, hs, checkedBeforeClaims]
    · simp [setCreateWork, hc, SetCreate.refusal, Config.maxMembers, hl, not_distinctExits hd, checkedBeforeClaims]

theorem jobStartWork_checked {spec : JobSpec} (hs : jobSpecOf ps = some spec)
    (h : spec.keyOk = false ∨ ∀ n, s.slot n ≠ .idle) : checkedBeforeClaims 0x70 (jobStartWork ps s).2 = true := by
  cases hk : spec.keyOk with
  | false => simp [jobStartWork, hs, hk, checkedBeforeClaims]
  | true =>
    have hno : (fours.find? fun n => s.slot n == .idle) = none :=
      List.find?_eq_none.mpr fun n _ => by simpa using (h.resolve_left (by simp [hk])) n
    simp [jobStartWork, hs, hk, hno, checkedBeforeClaims]

/-- Of a command that a check refuses the work replies so, whatever its claims. -/
theorem hostWork_checked {c : Instr} {code : Nat} (hc : hostCode c = some code) {r : ResultCode} (h : checkFails c ps s r) :
    checkedBeforeClaims code (hostWork c ps s).2 = true := by
  by_cases hb : badArgs c ps
  · rw [hostWork_badArg s hc hb]; rfl
  · cases r <;> simp only [checkFails] at h
    case badArg => exact absurd h hb
    case badKey =>
      rcases h with ⟨others, i, ho, hi, hk⟩ | ⟨rfl, spec, hs, hk⟩
      · cases c <;> simp only [identityOthers, reduceCtorEq, Option.some.injEq] at ho
        case routeAdd => subst ho; exact withIdentity_checked hi hk
        case routeChange => subst ho; exact withIdentity_checked hi hk
        case routeDrop => subst ho; exact withIdentity_checked hi hk
        case routeRead =>
          show checkedBeforeClaims _ (routeReadWork ps s).2 = true
          unfold routeReadWork
          rcases readModeOf_cases (bits (param ps 0) 7 0) with ⟨hn, hm⟩ | ⟨hn, hm⟩ | ⟨hn, hm⟩ | ⟨hn, hm⟩ <;> rw [hm]
          · obtain rfl : 1 = others := by simpa [hn] using ho
            exact withIdentity_checked hi hk
          · obtain rfl : 1 = others := by simpa [hn] using ho
            exact withIdentity_checked hi hk
          · simp [hn] at ho
          · rfl
      · cases hc; exact jobStartWork_checked hs (.inl hk)
    case setFull =>
      obtain ⟨rfl, x, hx, hl⟩ := h
      cases hc; exact setCreateWork_checked hx (.inl hl)
    case dupMember =>
      obtain ⟨rfl, x, hx, hd⟩ := h
      cases hc; exact setCreateWork_checked hx (.inr (.inl hd))
    case selfRef =>
      rcases h with ⟨rfl, x, hx, hs⟩ | ⟨rfl, id, x, hx, hs⟩
      · cases hc; exact setCreateWork_checked hx (.inr (.inr hs))
      · cases hc; simp [hostWork, setChangeWork, hx, hs, checkedBeforeClaims]
    case noSlot =>
      obtain ⟨rfl, hno⟩ := h
      cases hc
      obtain ⟨spec, hs⟩ := Option.ne_none_iff_exists'.mp (mt jobSpecOf_eq_none.mp hb)
      exact jobStartWork_checked hs (.inr hno)

end

/-! ### When a block takes a command's claims -/

theorem inLine_iff {α : Type} [DecidableEq α] {c : α} {l : ClaimLine α} : inLine c l = true ↔ c ∈ l.flatten := by
  simp [inLine]

theorem offerLine_eq {α : Type} [DecidableEq α] (c : α) (l : ClaimLine α) :
    offerLine c l = if c ∈ l.flatten then l else l ++ [[c]] := by
  unfold offerLine joinLine
  exact if_congr inLine_iff rfl rfl

/-- A claim that is presented now is first in line when no other waits, or when it waits already and is. -/
theorem firstInLine_offerLine {α : Type} [DecidableEq α] {c : α} {l : ClaimLine α} :
    firstInLine c (offerLine c l) = true ↔ l = [] ∨ ∃ g rest, l = g :: rest ∧ c ∈ g := by
  rw [offerLine_eq, firstInLine_iff]
  cases l with
  | nil => simp
  | cons g rest =>
    split
    · simp
    · rename_i hno
      have hg : c ∉ g := fun h => hno (by simp [h])
      simp [hg]

theorem PathTable.commandTaken_iff {pt : PathTable} : pt.commandTaken = true ↔ ∃ reads, pt.taken = some (.command reads) := by
  unfold PathTable.commandTaken
  split <;> simp_all

theorem claimsPathTable_iff (code : Nat) (ps : List Word) : claimsPathTable code ps = true ↔ (0x20 ≤ code ∧ code ≤ 0x38) ∨
    (code = 0x70 ∧ bits (param ps 0) 31 24 = 1 ∧ bits (param ps 0) 23 16 = 3) := by
  have hp : param ps 0 = ps.headD 0#32 := by cases ps <;> rfl
  simp [claimsPathTable, startsRepoint, hp]

theorem claimsPortTable_iff (code : Nat) : claimsPortTable code = true ↔ code ∈ [0x40, 0x41] := by simp [claimsPortTable]

theorem claimsRouteStore_iff (code : Nat) :
    claimsRouteStore code = true ↔ (0x10 ≤ code ∧ code ≤ 0x16) ∨ (0x92 ≤ code ∧ code ≤ 0x94) := by simp [claimsRouteStore]

theorem State.admits_iff (s : State) (code : Nat) (ps : List Word) : s.admits code ps = true ↔
    (claimsRouteStore code = true → s.rsFree = true ∨ (code = 0x92 ∧ s.pmon.admits .command = true)) ∧
    (claimsPathTable code ps = true → (∃ reads, s.pt.taken = some (.command reads)) ∨ s.ptAdmits .command = true) ∧
    (claimsPortTable code = true → s.pmon.admits .command = true) := by
  rw [← PathTable.commandTaken_iff]
  simp only [State.admits, Bool.and_eq_true, Bool.or_eq_true, Bool.not_eq_true', beq_iff_eq, and_assoc, or_assoc]
  refine and_congr ?_ (and_congr ?_ ?_)
  · cases claimsRouteStore code <;> simp
  · cases claimsPathTable code ps <;> simp
  · cases claimsPortTable code <;> simp

theorem Job.surveyTaken_iff (j : Job) : j.surveyTaken = true ↔ j.step = .taken ∧ ∃ f a, j.spec = .survey f a := by
  rcases j with ⟨_ | _, _, _, _, _, _ | _ | _, _⟩ <;> simp [Job.surveyTaken]

theorem Job.refillTaken_iff (j : Job) : j.refillTaken = true ↔ j.step = .taken ∧ ∃ a b, j.spec = .refill a b := by
  rcases j with ⟨_ | _, _, _, _, _, _ | _ | _, _⟩ <;> simp [Job.refillTaken]

theorem JobEngine.mem_jobs {s : State} {j : Job} : j ∈ s.je.jobs ↔ (∃ n, s.slot n = .running j) ∨ j ∈ s.je.dropped := by
  have hslot : ∀ n, s.je.slots[n].runningJob? = some j ↔ s.slot n = .running j := fun n => by
    show (s.slot n).runningJob? = some j ↔ _
    cases s.slot n <;> simp [Slot.runningJob?]
  simp only [JobEngine.jobs, List.mem_append, List.mem_filterMap, mem_fours, true_and, hslot]

theorem State.rsFree_iff (s : State) : s.rsFree = true ↔
    ∀ j, ((∃ n, s.slot n = .running j) ∨ j ∈ s.je.dropped) → j.step = .taken → ∀ f a, j.spec ≠ .survey f a := by
  simp only [State.rsFree, Bool.not_eq_true', List.any_eq_false, JobEngine.mem_jobs, Job.surveyTaken_iff, not_and, not_exists]

theorem State.ptFree_iff (s : State) : s.ptFree = true ↔ s.pt.taken = none ∧
    ∀ j, ((∃ n, s.slot n = .running j) ∨ j ∈ s.je.dropped) → j.step = .taken → ∀ first last, j.spec ≠ .refill first last := by
  simp only [State.ptFree, Bool.and_eq_true, Option.isNone_iff_eq_none, Bool.not_eq_true', List.any_eq_false, JobEngine.mem_jobs,
    Job.refillTaken_iff, not_and, not_exists]

theorem State.commandAtRouteStore_iff (s : State) : s.commandAtRouteStore = true ↔
    (∃ ws marks, s.cu = .busy ws (.writingMarks marks)) ∨ (∃ ws, s.cu = .busy ws .referring) ∨
      ∃ w ps, s.cu = .busy (w :: ps) .waiting ∧ claimsRouteStore (bits w 31 24) = true := by
  unfold State.commandAtRouteStore
  split <;> simp_all [commandCode]

theorem State.ptTakes_iff (s : State) (c : PtClaim) :
    s.ptTakes c = true ↔ s.ptFree = true ∧ ∃ g rest, s.pt.waiting = g :: rest ∧ c ∈ g := by
  rw [State.ptTakes, Bool.and_eq_true, PathTable.takeable, firstInLine_iff]

theorem State.ptAdmits_iff (s : State) (c : PtClaim) : s.ptAdmits c = true ↔
    s.ptFree = true ∧ (s.pt.waiting = [] ∨ ∃ g rest, s.pt.waiting = g :: rest ∧ c ∈ g) := by
  rw [State.ptAdmits, Bool.and_eq_true]
  exact and_congr_right fun _ => firstInLine_offerLine

theorem PortMonitor.admits_iff (m : PortMonitor) (c : PortClaim) :
    m.admits c = true ↔ m.waiting = [] ∨ ∃ g rest, m.waiting = g :: rest ∧ c ∈ g := firstInLine_offerLine

/-! ### The step of a host command -/

section
variable {c : Instr} {code : Nat} {s : State}

/-- A step whose command the CU does not hold does not take place. -/
theorem exec_not_held (hc : hostCode c = some code) (h : ∀ ps, ¬ s.holds code ps) : exec c s = .next s := by
  rw [exec_host hc]
  rcases runCommand_cases code (hostWork c) s with he | ⟨w, ps, p, hw, hcu, hp, hr, -⟩
  · rw [he]
  · exact absurd ⟨hr, w, p, hw, hcu, Progress.unapplied_iff.mp hp⟩ (h ps)

variable {w : Word} {ps : List Word} {p : Progress} (hc : hostCode c = some code) (hr : s.dev.phase = .running)
  (hcu : s.cu = .busy (w :: ps) p)
  (hp : p = .held ∨ p = .waiting ∨ p = .referring ∨ p = .restartLeft ∨ p = .restartPorts) (hw : bits w 31 24 = code)
include hc hr hcu hp hw

/-- A command that its checks do not refuse waits until its claims are taken. -/
theorem exec_waits (ha : s.admits code ps = false) (hno : ∀ r, ¬ checkFails c ps s r) : exec c s = .next (s.await w ps) := by
  have hcheck : checkedBeforeClaims code (hostWork c ps s).2 = false := by
    by_contra hx
    obtain ⟨x, -, hf⟩ := replies_check (hostWork_replies ps s hc) (by simpa using hx)
    exact hno x hf
  obtain ⟨w', p', -, hcu', he⟩ := runCommand_waits (body := hostWork c) ⟨hr, w, p, hw, hcu, hp⟩ ha hcheck
  obtain ⟨hws, -⟩ := CommandUnit.busy.inj (hcu.symm.trans hcu')
  obtain ⟨rfl, -⟩ := List.cons.inj hws
  rw [exec_host hc, he]

/-- A command that a check refuses is answered whatever is in progress. -/
theorem exec_checkFails {r : ResultCode} (hf : checkFails c ps s r) :
    ∃ first, checkFails c ps s first ∧ exec c s = .next (s.answered first []) := by
  have hcheck := hostWork_checked hc hf
  obtain ⟨x, he, hx⟩ := replies_check (hostWork_replies ps s hc) hcheck
  rw [he] at hcheck
  exact ⟨x, hx, exec_checked hc ⟨hr, w, p, hw, hcu, hp⟩ he hcheck⟩

end

/-- Settles O8. -/
theorem hostCommandsNeedTheirCommand : Obligations.HostCommandsNeedTheirCommand := by
  refine ⟨fun c code s hc h => exec_not_held hc h, fun c code s w ps p hc hr hcu hp hw ha => ⟨fun hno => ?_, fun r hf =>
    exec_checkFails hc hr hcu hp hw hf⟩, fun s code ps => ?_, fun code ps => ⟨claimsPathTable_iff code ps, claimsPortTable_iff code⟩,
    fun s => ⟨s.rsFree_iff, s.ptFree_iff, ?_⟩, fun s c => ⟨s.ptTakes_iff c, s.ptAdmits_iff c, ?_⟩,
    fun m c => ⟨m.admits_iff c, ?_⟩, fun m p ports => ⟨rfl, fun ha => ?_, fun ha => ?_⟩⟩
  · rw [exec_waits hc hr hcu hp hw ha hno, State.await, commandCode, hw]
  · rw [State.admits_iff, claimsRouteStore_iff]
    constructor
    · rintro ⟨hrs, hpt, hpm⟩
      exact ⟨fun h => (hrs (by omega)).resolve_right (by omega), fun h => (hrs (by omega)).imp_right And.right, hpt, hpm⟩
    · rintro ⟨hrs, hset, hpt, hpm⟩
      refine ⟨fun h => ?_, hpt, hpm⟩
      by_cases h92 : code = 0x92
      · exact (hset h92).imp_right fun hm => ⟨h92, hm⟩
      · exact .inl (hrs (by omega))
  · simp only [State.commandAtRouteStore_iff, claimsRouteStore_iff]
  · rw [PathTable.offer, offerLine_eq]
  · rw [PortMonitor.offer, offerLine_eq]
  · rw [PortMonitor.readPorts, ha]; rfl
  · rw [PortMonitor.readPorts, ha]; rfl

end Sys2Proof.Machine
end

section
/-! PROOFS. The Management Port: transactions, flags and answers (chapter 9). -/

namespace Sys2Proof.Machine

-- The proofs are elaborated one after another: each thread counts against the memory in which the text is checked.
set_option Elab.async false

/-! ### The catalogue (R195 to R198) -/

theorem allowedCounts_mem {code n : Nat} : (∃ counts, allowedCounts code = some counts ∧ n ∈ counts) ↔
    (code ∈ [0x80, 0x90, 0x91, 0x93, 0x94] ∧ n = 0) ∨
    (code ∈ [0x10, 0x11, 0x22, 0x23, 0x24, 0x32, 0x33, 0x37, 0x38, 0x40, 0x41, 0x50, 0x51, 0x52, 0x53, 0x71, 0x72,
      0x81] ∧ n = 1) ∨
    (code ∈ [0x25, 0x34, 0x35, 0x36] ∧ n = 2) ∨ (code = 0x31 ∧ n = 3) ∨ (code ∈ [0x20, 0x92] ∧ n = 4) ∨
    (code = 0x21 ∧ n = 5) ∨ (code = 0x12 ∧ (n = 4 ∨ n = 7)) ∨ (code = 0x13 ∧ (n = 5 ∨ n = 8)) ∨
    (code ∈ [0x14, 0x15, 0x16] ∧ (n = 2 ∨ n = 5)) ∨ (code = 0x30 ∧ 2 ≤ n ∧ n ≤ 31) ∨
    (code = 0x60 ∧ (n = 3 ∨ n = 6)) ∨ (code = 0x70 ∧ (n = 2 ∨ n = 8)) := by
  have hset : (∃ a, a < 30 ∧ a + 2 = n) ↔ 2 ≤ n ∧ n ≤ 31 := ⟨by rintro ⟨a, ha, rfl⟩; omega, fun h => ⟨n - 2, by omega⟩⟩
  unfold allowedCounts
  split
  case h_40 => simp_all
  all_goals simp [hset]

/-! ### Words taken (R166, R167) -/

section
variable {s : State} {w : Word} (hr : s.dev.phase = .running)
include hr

theorem execWordWrite_ready (hm : s.mp.state = .ready) : execWordWrite w s = .next (s.takeFirstWord w) := by
  rw [execWordWrite, hr, hm]

theorem execWordWrite_collecting (hm : s.mp.state = .collecting) : execWordWrite w s = .next (s.takeParameter w) := by
  rw [execWordWrite, hr, hm]

end

section
variable {s : State} {w : Word} {ws : List Word} {counts : List Nat}

theorem State.completeCommand_allowed (h : ws.length - 1 ∈ counts) : s.completeCommand ws counts = s.handOver ws :=
  if_pos (by simpa using h)

theorem State.completeCommand_badLen (h : ws.length - 1 ∉ counts) :
    s.completeCommand ws counts = s.setMp (s.mp.answerSelf .badLen) := if_neg (by simpa using h)

theorem State.takeFirstWord_undefined (h : allowedCounts (bits w 31 24) = none) :
    s.takeFirstWord w = s.setMp (ManagementPort.answerSelf { s.mp with lost := false } .badCmd) := by
  rw [State.takeFirstWord, commandCode, h]

theorem State.takeFirstWord_defined (h : allowedCounts (bits w 31 24) = some counts) : s.takeFirstWord w =
    if bits w 4 0 = 0 then (s.setMp { s.mp with lost := false }).completeCommand [w] counts
    else s.setMp { s.mp with lost := false, state := .collecting, command := [w] } := by
  rw [State.takeFirstWord, commandCode, h, commandCount]

variable {first : Word} {ps : List Word} (hc : s.mp.command = first :: ps)
include hc

theorem State.takeParameter_more (h : ps.length + 1 < bits first 4 0) :
    s.takeParameter w = s.setMp { s.mp with command := first :: (ps ++ [w]) } := by
  simp [State.takeParameter, hc, commandCount, Nat.succ_le_of_lt h]

theorem State.takeParameter_last (hl : ps.length + 1 = bits first 4 0) (ha : allowedCounts (bits first 31 24) = some counts) :
    s.takeParameter w = s.completeCommand (first :: (ps ++ [w])) counts := by
  simp [State.takeParameter, hc, commandCount, commandCode, ← hl, ha]

end

/-- Settles O4. -/
theorem commandWordsAreCollected : Obligations.CommandWordsAreCollected := by
  unfold Obligations.CommandWordsAreCollected
  refine ⟨⟨fun s w hr hm => ⟨fun hn => ?_, fun counts hs => ⟨fun hp => ?_, fun h0 hin => ?_, fun h0 hout => ?_⟩⟩,
    fun s w first ps counts hr hm hc hs => ⟨fun hlt => ?_, fun heq hin => ?_, fun heq hout => ?_⟩⟩, fun code n => allowedCounts_mem⟩
  · rw [exec, execWordWrite_ready hr hm, State.takeFirstWord_undefined hn]; rfl
  · rw [exec, execWordWrite_ready hr hm, State.takeFirstWord_defined hs, if_neg (by omega)]
  · rw [exec, execWordWrite_ready hr hm, State.takeFirstWord_defined hs, if_pos h0, State.completeCommand_allowed (by simpa using hin)]
    rfl
  · rw [exec, execWordWrite_ready hr hm, State.takeFirstWord_defined hs, if_pos h0, State.completeCommand_badLen (by simpa using hout)]
    rfl
  · rw [exec, execWordWrite_collecting hr hm, State.takeParameter_more hc hlt]
  · rw [exec, execWordWrite_collecting hr hm, State.takeParameter_last hc heq hs, State.completeCommand_allowed (by simpa using hin)]
    rfl
  · rw [exec, execWordWrite_collecting hr hm, State.takeParameter_last hc heq hs, State.completeCommand_badLen (by simpa using hout)]
    rfl

/-! ### Words lost (R165, R173) -/

section
variable {s : State} {w : Word}

theorem execWordWrite_lost (hh : s.dev.phase ≠ .held) (ht : s.take = false) : execWordWrite w s = .next (s.setMp s.mp.lose) := by
  cases hp : s.dev.phase with
  | held => exact absurd hp hh
  | clearing => rw [execWordWrite, hp]
  | running => cases hm : s.mp.state <;> simp [State.take, State.running, hp, hm] at ht <;> rw [execWordWrite, hp, hm]

theorem execWordRead_lost (hh : s.dev.phase ≠ .held) (hg : s.give = false) :
    execWordRead s = .next (s.setMp s.mp.readNothing) := by
  cases hp : s.dev.phase with
  | held => exact absurd hp hh
  | clearing => rw [execWordRead, hp]
  | running =>
    have hm : s.mp.state ≠ .answering := by simpa [State.give, State.running, hp] using hg
    rw [execWordRead, hp]
    simp only [if_neg hm]

end

/-! ### The status word (R192) -/

/-- The status word with its flags apart. -/
def statusBits (lost attn work give take : Bool) : Word :=
  BitVec.ofNat 32 (0x5A000000 + flag lost 16 + flag attn 8 + flag work 4 + flag give 2 + flag take 1)

theorem State.statusWord_eq {s : State} (hh : s.dev.phase ≠ .held) :
    s.statusWord = some (statusBits s.mp.lost s.attn s.work s.give s.take) := if_neg (by simpa using hh)

theorem bits_statusBits (lost attn work give take : Bool) :
    bits (statusBits lost attn work give take) 31 24 = 0x5A ∧ bits (statusBits lost attn work give take) 23 5 = 0 ∧
    (bits (statusBits lost attn work give take) 4 4 = 1 ↔ lost = true) ∧
    (bits (statusBits lost attn work give take) 3 3 = 1 ↔ attn = true) ∧
    (bits (statusBits lost attn work give take) 2 2 = 1 ↔ work = true) ∧
    (bits (statusBits lost attn work give take) 1 1 = 1 ↔ give = true) ∧
    (bits (statusBits lost attn work give take) 0 0 = 1 ↔ take = true) := by
  revert lost attn work give take
  decide

section
variable (s : State)

theorem State.running_iff : s.running = true ↔ s.dev.phase = .running := by simp [State.running]

theorem State.attn_iff : s.attn = true ↔ s.au.list ≠ [] := by simp [State.attn]

theorem State.work_iff {s : State} (hh : s.dev.phase ≠ .held) :
    s.work = true ↔ s.dev.phase = .clearing ∨ s.mp.state = .working := by
  cases hp : s.dev.phase with
  | held => exact absurd hp hh
  | clearing => simp [State.work, hp]
  | running => simp [State.work, State.running, hp]

theorem State.give_iff : s.give = true ↔ s.dev.phase = .running ∧ s.mp.state = .answering := by
  simp [State.give, State.running]

theorem State.take_iff : s.take = true ↔ s.dev.phase = .running ∧ (s.mp.state = .ready ∨ s.mp.state = .collecting) := by
  simp [State.take, State.running]

end

/-! ### Transactions on the wires (R163, R192) -/

/-- Reading a shifted word from its first bits gives its highest bits. -/
theorem msbFirst_take {n : Nat} (x : BitVec n) {k : Nat} (hk : k ≤ n) :
    msbFirst ((List.range k).map x.getMsbD) = x.toNat >>> (n - k) := by
  induction k with
  | zero => simp [msbFirst, Nat.shiftRight_eq_div_pow, Nat.div_eq_of_lt x.isLt]
  | succ k ih =>
    have hbit : (x.getMsbD k).toNat = x.toNat >>> (n - (k + 1)) % 2 := by
      rw [BitVec.getMsbD_eq_getLsbD, decide_eq_true (Nat.lt_of_succ_le hk), Bool.true_and, BitVec.getLsbD, Nat.testBit_eq_decide_div_mod_eq,
        Nat.shiftRight_eq_div_pow, show n - 1 - k = n - (k + 1) by omega]
      rcases Nat.mod_two_eq_zero_or_one (x.toNat / 2 ^ (n - (k + 1))) with h | h <;> simp [h]
    have hup : x.toNat >>> (n - k) = x.toNat >>> (n - (k + 1)) / 2 := by
      rw [show n - k = n - (k + 1) + 1 by omega, Nat.shiftRight_succ]
    have hstep : msbFirst ((List.range (k + 1)).map x.getMsbD) =
        2 * msbFirst ((List.range k).map x.getMsbD) + (x.getMsbD k).toNat := by
      simp [msbFirst, List.range_succ]
    rw [hstep, ih (by omega), hbit, hup]
    omega

theorem msbFirst_getMsbD {n : Nat} (x : BitVec n) : BitVec.ofNat n (msbFirst ((List.range n).map x.getMsbD)) = x := by
  rw [msbFirst_take x (Nat.le_refl n)]
  simp

theorem spiReceive_sent (op : Byte) (w : Word) (beyond : List Bool) :
    spiReceive (((List.range 8).map op.getMsbD ++ (List.range 32).map w.getMsbD) ++ beyond) =
      spiTransaction op (40 + beyond.length) w := by
  have hop : (((List.range 8).map op.getMsbD ++ (List.range 32).map w.getMsbD) ++ beyond).take 8 = (List.range 8).map op.getMsbD := by
    rw [List.append_assoc, List.take_left' (by simp)]
  have hw : ((((List.range 8).map op.getMsbD ++ (List.range 32).map w.getMsbD) ++ beyond).drop 8).take 32 =
      (List.range 32).map w.getMsbD := by
    rw [List.append_assoc, List.drop_left' (by simp), List.take_left' (by simp)]
  rw [spiReceive, hop, hw, msbFirst_getMsbD, msbFirst_getMsbD]
  simp [← Nat.add_assoc]

theorem spiTransaction_complete (op : Byte) (n : Nat) (w : Word) : spiTransaction op (40 + n) w =
    if op = 0x2B#8 then some (.wordWrite w) else if op = 0x4C#8 then some .wordRead else if op = 0x7D#8 then some .abort else none := by
  rw [spiTransaction, if_neg (by omega), spiOpcode]
  by_cases h : op = 0x31#8
  · subst h; rfl
  · rw [if_neg h]
    split_ifs <;> rfl

theorem spiReceive_short {l : List Bool} (h : l.length < 40) : spiReceive l = none := by
  rw [spiReceive, spiTransaction, if_pos h]

/-! ### SDO -/

section
variable {s : State} {w : Word}

theorem State.sdoWord_status : s.sdoWord 0x31#8 = s.statusWord.getD 0#32 := rfl

theorem State.sdoWord_read : s.sdoWord 0x4C#8 = if s.give then s.mp.answer.headD 0#32 else 0#32 := rfl

theorem State.sdoWord_other {op : Byte} (hs : op ≠ 0x31#8) (hr : op ≠ 0x4C#8) : s.sdoWord op = 0#32 := by
  rw [State.sdoWord, spiOpcode, if_neg hs, if_neg hr]
  split_ifs <;> rfl

theorem State.sdo_driven {op : Byte} {k : Nat} (hh : s.dev.phase ≠ .held) :
    s.sdo true op k = some (decide (8 ≤ k) && (s.sdoWord op).getMsbD (k - 8)) := if_neg (by simpa using hh)

/-- The word that SDO carries, as R172, R173 and R192 give it. -/
theorem State.sdoWord_eq {op : Byte} (h : (op = 0x31#8 ∧ s.statusWord = some w) ∨
    (op = 0x4C#8 ∧ s.dev.phase = .running ∧ s.mp.state = .answering ∧ ∃ rest, s.mp.answer = w :: rest) ∨
    (op = 0x4C#8 ∧ (s.dev.phase ≠ .running ∨ s.mp.state ≠ .answering) ∧ w = 0#32) ∨
    (op ≠ 0x31#8 ∧ op ≠ 0x4C#8 ∧ w = 0#32)) : s.sdoWord op = w := by
  rcases h with ⟨rfl, hw⟩ | ⟨rfl, hr, hm, rest, ha⟩ | ⟨rfl, hno, rfl⟩ | ⟨hs, hr, rfl⟩
  · rw [State.sdoWord_status, hw]; rfl
  · rw [State.sdoWord_read, if_pos (s.give_iff.mpr ⟨hr, hm⟩), ha]; rfl
  · rw [State.sdoWord_read, if_neg (by rwa [s.give_iff, not_and_or])]
  · exact State.sdoWord_other hs hr

end

/-- Settles O5. -/
theorem statusFlagsAndLostWords : Obligations.StatusFlagsAndLostWords := by
  refine ⟨fun s w => ⟨fun hh ht => execWordWrite_lost hh ht, fun hh hg => execWordRead_lost hh hg, fun hh => ⟨?_, ?_⟩⟩,
    fun s => ⟨fun hh => if_pos (by simpa using hh), fun hh => ⟨_, State.statusWord_eq hh, ?_⟩⟩,
    fun op w beyond => ⟨fun k hk => spiReceive_short (by simp; omega), ?_⟩, fun s csLow op k => ⟨fun h => if_pos (by simpa using h),
    fun hcs hh => ⟨fun hk => ?_, fun w hw hk => ?_⟩⟩⟩
  · rw [exec, execWordWrite, hh]
  · rw [exec, execWordRead, hh]
  · rw [← s.attn_iff, ← State.work_iff hh, ← s.give_iff, ← s.take_iff]
    exact bits_statusBits ..
  · rw [spiReceive_sent, spiTransaction_complete]
    refine ⟨fun h => if_pos h, fun h => ?_, fun h => ?_, fun h => ?_⟩
    · subst h; rfl
    · subst h; rfl
    · simp only [List.mem_cons, List.not_mem_nil, or_false, not_or] at h
      rw [if_neg h.1, if_neg h.2.1, if_neg h.2.2]
  · subst hcs
    rw [State.sdo_driven hh]
    rcases hk with hk | hk
    · simp [Nat.not_le_of_lt hk]
    · rw [BitVec.getMsbD_of_ge _ _ (by omega), Bool.and_false]
  · subst hcs
    rw [State.sdo_driven hh, State.sdoWord_eq hw, decide_eq_true hk, Bool.true_and]

/-! ### Answers read, and ABORT (R172, R174, R175) -/

/-- Settles O6. -/
theorem answerReadOrAborted : Obligations.AnswerReadOrAborted := by
  refine ⟨fun s a rest hr hm ha => ?_, fun s => ⟨fun hr => ?_, fun hr => ⟨fun hm => ?_, fun hm => ?_, fun hm => ?_, fun hm => ?_⟩⟩⟩
  · have hread : exec .wordRead s = .next (s.setMp s.mp.readNext) := by
      rw [exec, execWordRead, hr]
      simp only [if_pos hm]
    rw [hread, ManagementPort.readNext, ha]
    cases rest with
    | nil => simp
    | cons b rest => simp [hm]
  · rw [exec, execAbort]
    cases hp : s.dev.phase with
    | held | clearing => rfl
    | running => exact absurd hp hr
  all_goals rw [exec, execAbort, hr, hm]

/-! ### The end of a work phase (R170, R171, R175) -/

section
variable {s : State} {ws : List Word}

theorem execWorkPhaseEnd_answered {a : Answer} (hr : s.dev.phase = .running) (hcu : s.cu = .busy ws (.answered a)) :
    execWorkPhaseEnd s = .next ((s.setMp (s.mp.handBack a)).setCu .idle) := by
  have hl : s.lastClaim = s := by rw [State.lastClaim, hcu]
  rw [execWorkPhaseEnd, hl, s.running_iff.mpr hr, hcu]
  rfl

/-- The claim that is left gives the answer: the work phase ends from it. -/
theorem execWorkPhaseEnd_claimed {t : State} {p : Progress} {r : ResultCode} {answer : List Word} (hr : s.dev.phase = .running)
    (hdev : t.dev = s.dev) (ht : t.cu = .busy ws p) (h : s.lastClaim = t.progressTo ws (.answered ⟨r, answer⟩)) :
    execWorkPhaseEnd s = execWorkPhaseEnd (t.answered r answer) := by
  have hu : t.answered r answer = t.progressTo ws (.answered ⟨r, answer⟩) := by
    rw [State.answered, State.withProgress, ht]; rfl
  have hcu : (t.progressTo ws (.answered ⟨r, answer⟩)).cu = .busy ws (.answered ⟨r, answer⟩) := rfl
  rw [hu, execWorkPhaseEnd_answered (by simp [hdev, hr]) hcu, execWorkPhaseEnd, h, s.running_iff.mpr hr, hcu]
  rfl

/-- The claim that is left is presented, and the work phase goes on. -/
theorem execWorkPhaseEnd_left {t : State} {p : Progress} (hr : s.dev.phase = .running) (hcu : t.cu = .busy ws p)
    (hp : ∀ a, p ≠ .answered a) (h : s.lastClaim = t) : execWorkPhaseEnd s = .next t := by
  rw [execWorkPhaseEnd, h, s.running_iff.mpr hr, hcu]
  cases p with
  | answered a => exact absurd rfl (hp a)
  | _ => rfl

variable (hr : s.dev.phase = .running)
include hr

theorem workPhaseEnd_counting {p : Fin 64} {words : List Word} {changes : Nat} (hcu : s.cu = .busy ws (.counting p words changes)) :
    (s.ptAdmits .command = true → execWorkPhaseEnd s = execWorkPhaseEnd (s.answered .ok (words ++ [s.pt.portWord p changes]))) ∧
    (s.ptAdmits .command = false → execWorkPhaseEnd s = .next (s.setPt (s.pt.offer .command))) := by
  constructor
  · intro ha
    exact execWorkPhaseEnd_claimed hr rfl hcu (by rw [State.lastClaim, hcu]; exact if_pos ha)
  · intro ha
    exact execWorkPhaseEnd_left hr (t := s.setPt _) hcu nofun (by rw [State.lastClaim, hcu]; exact if_neg (by simp [ha]))

theorem workPhaseEnd_writingHold {hold : Option Nat} (hcu : s.cu = .busy ws (.writingHold hold)) :
    (s.pmon.admits .command = true → execWorkPhaseEnd s =
      execWorkPhaseEnd ((s.writeHoldDown hold).answered .ok (s.writeHoldDown hold).parameterWords)) ∧
    (s.pmon.admits .command = false → execWorkPhaseEnd s = .next (s.setPmon (s.pmon.offer .command))) := by
  constructor
  · intro ha
    exact execWorkPhaseEnd_claimed hr (by simp) (by simpa using hcu) (by rw [State.lastClaim, hcu]; exact if_pos ha)
  · intro ha
    exact execWorkPhaseEnd_left hr (t := s.setPmon _) hcu nofun (by rw [State.lastClaim, hcu]; exact if_neg (by simp [ha]))

theorem workPhaseEnd_readingHold {high low : Nat} (hcu : s.cu = .busy ws (.readingHold high low)) :
    (s.pmon.admits .command = true → execWorkPhaseEnd s =
      execWorkPhaseEnd (s.answered .ok [wordOf s.pmon.holdDown, wordOf high, wordOf low])) ∧
    (s.pmon.admits .command = false → execWorkPhaseEnd s = .next (s.setPmon (s.pmon.offer .command))) := by
  constructor
  · intro ha
    exact execWorkPhaseEnd_claimed hr rfl hcu (by rw [State.lastClaim, hcu]; exact if_pos ha)
  · intro ha
    exact execWorkPhaseEnd_left hr (t := s.setPmon _) hcu nofun (by rw [State.lastClaim, hcu]; exact if_neg (by simp [ha]))

theorem workPhaseEnd_writingMarks {marks : Option (Nat × Nat)} (hcu : s.cu = .busy ws (.writingMarks marks)) :
    (s.rsFree = false → execWorkPhaseEnd s = .next s) ∧
    (s.rsFree = true → execWorkPhaseEnd s =
      execWorkPhaseEnd ((s.writeWatermarks marks).answered .ok (s.writeWatermarks marks).parameterWords)) := by
  constructor
  · intro ha
    exact execWorkPhaseEnd_left hr hcu nofun (by rw [State.lastClaim, hcu]; exact if_neg (by simp [ha]))
  · intro ha
    exact execWorkPhaseEnd_claimed hr (by simp) (by simpa using hcu) (by rw [State.lastClaim, hcu]; exact if_pos ha)

end

section
variable (s : State)

@[simp] theorem State.evalWatermark_high : s.evalWatermark.rs.high = s.rs.high := by
  unfold State.evalWatermark; (repeat' split) <;> simp
@[simp] theorem State.evalWatermark_low : s.evalWatermark.rs.low = s.rs.low := by
  unfold State.evalWatermark; (repeat' split) <;> simp

theorem State.writeHoldDown_eq (hold : Option Nat) :
    s.writeHoldDown hold = s.setPmon { s.pmon with holdDown := hold.getD s.pmon.holdDown } := by
  cases hold <;> rfl

end

/-- Settles O7. -/
theorem workPhaseEnds : Obligations.WorkPhaseEnds := by
  refine ⟨fun s ws a hr hcu => ⟨fun hab hl => ?_, fun hab => ?_⟩, fun s ws p words changes hr hcu => ?_,
    fun s ws hold hr hcu => ?_, fun s ws high low hr hcu => workPhaseEnd_readingHold hr hcu, fun s ws marks hr hcu =>
    ⟨(workPhaseEnd_writingMarks hr hcu).1, fun hf => ⟨fun hm => ?_, fun high low hm => ?_⟩⟩⟩
  · have hcode : a.code.value < 256 := by cases a.code <;> decide
    refine ⟨pack8 a.code.value 0 0 a.words.length, bits_pack8_31_24 hcode (by omega) (by omega) (by omega), ?_, ?_, ?_⟩
    · rw [bits, pack8_toNat hcode (by omega) (by omega) (by omega), Nat.shiftRight_eq_div_pow]
      omega
    · rw [bits, pack8_toNat hcode (by omega) (by omega) (by omega), Nat.shiftRight_eq_div_pow]
      omega
    · rw [exec, execWorkPhaseEnd_answered hr hcu, ManagementPort.handBack, if_neg (by simp [hab])]; rfl
  · rw [exec, execWorkPhaseEnd_answered hr hcu, ManagementPort.handBack, if_pos hab]
  · exact workPhaseEnd_counting hr hcu
  · have h := workPhaseEnd_writingHold hr hcu
    rw [State.writeHoldDown_eq] at h
    exact h
  · subst hm
    exact (workPhaseEnd_writingMarks hr hcu).2 hf
  · subst hm
    have h := (workPhaseEnd_writingMarks hr hcu).2 hf
    simp only [State.writeWatermarks, State.parameterWords, State.evalWatermark_pmon, State.evalWatermark_high, State.evalWatermark_low,
      State.setRs_pmon, State.setRs_rs] at h
    exact h

/-! ### Parameters and the watermark (R11, R12, R179, R180) -/

section
variable {ps : List Word} {s : State} {hold : Option Nat} {marks : Option (Nat × Nat)} {h high low : Nat}

theorem setParametersFields_eq
    (hh : (bits (param ps 0) 31 24 = 0 ∧ hold = none ∧ h = s.pmon.holdDown) ∨
      (bits (param ps 0) 31 24 = 1 ∧ hold = some h ∧ h = bits (param ps 1) 15 0 ∧ h ≤ 10000))
    (hm : (bits (param ps 0) 23 16 = 0 ∧ marks = none ∧ high = s.rs.high ∧ low = s.rs.low) ∨
      (bits (param ps 0) 23 16 = 1 ∧ marks = some (high, low) ∧ high = (param ps 2).toNat ∧ low = (param ps 3).toNat ∧
        1 ≤ high ∧ high ≤ 65536 ∧ low < high)) :
    setParametersFields ps = some (hold, marks) := by
  have hhold : ∃ b, bitOf (bits (param ps 0) 31 24) = some b ∧
      whenSelected b (atMost Config.maxHoldDown (bits (param ps 1) 15 0)) = some hold := by
    rcases hh with ⟨h0, rfl, -⟩ | ⟨h1, rfl, rfl, hle⟩
    · exact ⟨false, by rw [h0]; rfl, rfl⟩
    · exact ⟨true, by rw [h1]; rfl, by simp [whenSelected, atMost, Config.maxHoldDown, hle]⟩
  have hmarks : ∃ b, bitOf (bits (param ps 0) 23 16) = some b ∧ whenSelected b
      (if 1 ≤ (param ps 2).toNat ∧ (param ps 2).toNat ≤ 65536 ∧ (param ps 3).toNat ≤ 65535 ∧ (param ps 3).toNat < (param ps 2).toNat
        then some ((param ps 2).toNat, (param ps 3).toNat) else none) = some marks := by
    rcases hm with ⟨h0, rfl, -⟩ | ⟨h1, rfl, rfl, rfl, hpos, hle, hlt⟩
    · exact ⟨false, by rw [h0]; rfl, rfl⟩
    · exact ⟨true, by rw [h1]; rfl, by simp [whenSelected, hpos, hle, hlt, Nat.le_of_lt_succ (Nat.lt_of_lt_of_le hlt hle)]⟩
  obtain ⟨b, hb, hb'⟩ := hhold
  obtain ⟨c, hc, hc'⟩ := hmarks
  simp only [setParametersFields, hb, hc, hb', hc', Option.bind_eq_bind, Option.bind_some]

end

theorem State.withProgress_cu {s : State} {w : Word} {ps : List Word} {p q : Progress} (hcu : s.cu = .busy (w :: ps) p) :
    (s.withProgress q).cu = .busy (w :: ps) q := by
  rw [State.withProgress, hcu]; rfl

theorem State.withProgress_holdDown {s : State} (q : Progress) : (s.withProgress q).pmon.holdDown = s.pmon.holdDown := by
  unfold State.withProgress; split <;> rfl

theorem State.evalWatermark_cases (s : State) :
    (s.rs.armed = false → s.rs.units < s.rs.low → s.evalWatermark = s.setRs { s.rs with armed := true }) ∧
    (s.rs.armed = true → s.rs.high ≤ s.rs.units →
      s.evalWatermark = (s.setRs { s.rs with armed := false }).post (.space s.rs.units)) ∧
    (s.rs.armed = false → s.rs.low ≤ s.rs.units → s.evalWatermark = s) ∧
    (s.rs.armed = true → s.rs.units < s.rs.high → s.evalWatermark = s) := by
  unfold State.evalWatermark
  refine ⟨fun ha hu => ?_, fun ha hu => ?_, fun ha hu => ?_, fun ha hu => ?_⟩
  · simp [ha, hu]
  · simp [ha, hu]
  · simp [ha, hu]
  · simp [ha, hu]

/-- Settles O14. -/
theorem parametersAndWatermark : Obligations.ParametersAndWatermark := by
  refine ⟨fun s ps hw => ?_, fun s ps hold marks h high low hw hh hm => ?_, State.evalWatermark_cases⟩
  · obtain ⟨w, p, -, hcu, -⟩ := hw.1.2
    have hr := hw.1.1
    refine ⟨exec_progress rfl hw rfl rfl, fun ha => ?_⟩
    have he := (workPhaseEnd_readingHold (by rw [State.withProgress_dev, hr]) (State.withProgress_cu hcu)).1 ha
    rw [State.withProgress_holdDown] at he
    exact he
  · obtain ⟨w, p, -, hcu, -⟩ := hw.1.2
    have hr := hw.1.1
    have hf := setParametersFields_eq hh hm
    have hwritten : (if marks = none then s else (s.setRs { s.rs with high := high, low := low }).evalWatermark) = s.writeWatermarks marks := by
      rcases hm with ⟨-, rfl, -⟩ | ⟨-, rfl, -⟩ <;> rfl
    have hhold : hold.getD s.pmon.holdDown = h := by
      rcases hh with ⟨-, rfl, rfl⟩ | ⟨-, rfl, -⟩ <;> rfl
    have hmarks : (s.writeWatermarks marks).rs.high = high ∧ (s.writeWatermarks marks).rs.low = low := by
      rcases hm with ⟨-, rfl, rfl, rfl⟩ | ⟨-, rfl, -⟩ <;> simp [State.writeWatermarks]
    rw [hwritten]
    refine ⟨fun hfree => ⟨exec_progress rfl hw (by simp [hostWork, setParametersWork, hf, hfree]) (by simp), fun ha => ?_⟩, fun hbusy =>
      exec_progress rfl hw (by simp [hostWork, setParametersWork, hf, hbusy, State.writeHoldDown_eq, hhold]) rfl⟩
    have he := (workPhaseEnd_writingHold (by rw [State.withProgress_dev]; simpa using hr)
      (State.withProgress_cu (w := w) (ps := ps) (p := p) (by simpa using hcu))).1 ha
    rw [State.writeHoldDown_eq, State.withProgress_holdDown, State.writeWatermarks_pmon, hhold] at he
    rw [exec, he, State.parameterWords]
    simp only [State.setPmon_pmon, State.setPmon_rs, State.withProgress_rs, hmarks, wordOf, exec]

end Sys2Proof.Machine
end

section
/-! PROOFS. The formats of chapter 10: the fields of a word, the operand groups, and the messages of a lane. -/

namespace Sys2Proof.Machine

-- The proofs are elaborated one after another: each thread counts against the memory in which the text is checked.
set_option Elab.async false

/-! ### The fields of a word -/

/-- A field of a word that spells `n`. -/
theorem bits_wordOf {n : Nat} (hn : n < 2 ^ 32) (hi lo : Nat) : bits (wordOf n) hi lo = n / 2 ^ lo % 2 ^ (hi - lo + 1) := by
  rw [bits, wordOf, BitVec.toNat_ofNat, Nat.mod_eq_of_lt hn, Nat.shiftRight_eq_div_pow]

theorem pack8_eq (a b c d : Nat) : pack8 a b c d = wordOf (a * 2 ^ 24 + b * 2 ^ 16 + c * 2 ^ 8 + d) := rfl

theorem pack16_eq (a b : Nat) : pack16 a b = wordOf (a * 2 ^ 16 + b) := rfl

theorem bits_eq (w : Word) (hi lo : Nat) : bits w hi lo = w.toNat / 2 ^ lo % 2 ^ (hi - lo + 1) := by
  rw [bits, Nat.shiftRight_eq_div_pow]

/-! ### Codes (R194) -/

@[simp] theorem rejoinOf_code (p : RejoinPolicy) : rejoinOf p.code = some p := by cases p <;> rfl
@[simp] theorem classOf_code (c : RouteClass) : classOf c.code = some c := by cases c <;> rfl
@[simp] theorem bitOf_bitCode (b : Bool) : bitOf (bitCode b) = some b := by cases b <;> rfl

theorem Family.code_lt (f : Family) : f.code < 256 := by cases f <;> decide
theorem RouteClass.code_lt (c : RouteClass) : c.code < 256 := by cases c <;> decide
theorem RejoinPolicy.code_lt (p : RejoinPolicy) : p.code < 256 := by cases p <;> decide
theorem bitCode_le (b : Bool) : bitCode b ≤ 1 := by cases b <;> decide

theorem atMost_of_le {limit v : Nat} (h : v ≤ limit) : atMost limit v = some v := if_pos h

/-! ### Keys -/

theorem wideKey_words (k : BitVec 128) :
    wideKey (k.extractLsb' 96 32) (k.extractLsb' 64 32) (k.extractLsb' 32 32) (k.extractLsb' 0 32) = k := by
  apply BitVec.eq_of_toNat_eq
  have hk := k.isLt
  simp only [wideKey, BitVec.toNat_ofNat, BitVec.extractLsb'_toNat, Nat.shiftRight_eq_div_pow]
  omega

/-- A key's words stand at a place. -/
theorem keyAt_words {pre : List Word} {k : Key} {more : List Word} {i : Nat} (hi : pre.length = i) :
    keyAt (pre ++ (k.toWords ++ more)) i k.family = k := by
  subst hi
  cases k with
  | narrow k => simp [keyAt, Key.family, Key.toWords, param]
  | wide k => simp [keyAt, Key.family, Key.toWords, param, wideKey_words]

theorem Key.toWords_length_eq (k : Key) : k.toWords.length = k.family.keyWords := by cases k <;> rfl

theorem getMsbD_shiftLeft_eq_zero {n : Nat} (k : BitVec n) (len : Nat) :
    k <<< len = 0#n ↔ ∀ j, len ≤ j → k.getMsbD j = false := by
  constructor
  · intro h j hj
    have hbit : (k <<< len).getMsbD (j - len) = false := by rw [h]; simp
    by_cases hj' : j < n
    · rw [BitVec.getMsbD_shiftLeft, show j - len + len = j by omega] at hbit
      simpa using hbit
    · rw [BitVec.getMsbD_of_ge _ _ (by omega)]
  · intro h
    apply BitVec.eq_of_getMsbD_eq
    intro j hj
    rw [BitVec.getMsbD_shiftLeft, h (j + len) (by omega)]
    simp

/-- A key is zero past the length that its identity gives (R2). -/
theorem Identity.keyOk_iff (i : Identity) : i.keyOk = true ↔ ∀ k, i.len ≤ k → i.key.bit k = false := by
  rcases i with ⟨d, k | k, len⟩ <;> simp [Identity.keyOk, Key.zeroBeyond, Key.bit, getMsbD_shiftLeft_eq_zero]

/-! ### Word groups (R194) -/

theorem Family.width_le (f : Family) : f.width ≤ 128 := by cases f <;> decide

/-- The first word of a group names the key's family, and the words received are as many as it asks for. -/
theorem familyFor_of_code {ps : List Word} {others : Nat} {w : Word} {f : Family} (hw : bits w 23 16 = f.code)
    (hl : ps.length = f.keyWords + others) : familyFor ps others w = some f := by
  simp [familyFor, hw, hl]

theorem identityOf_layout {i : Identity} (others : List Word) (hi : i.len ≤ i.family.width) :
    identityOf (i.layout ++ others) (others.length + 1) = some i := by
  have hd : i.domain.val < 256 := Nat.lt_of_lt_of_le i.domain.isLt (by decide)
  have hf := i.family.code_lt
  have hl : i.len < 256 := by have := i.family.width_le; omega
  have hlen : (i.layout ++ others).length = i.family.keyWords + (others.length + 1) := by
    simp [Identity.layout, Key.toWords_length_eq, Identity.family]; omega
  have hword : param (i.layout ++ others) 0 = pack8 i.domain i.family.code i.len 0 := rfl
  have hlenbits : bits (pack8 i.domain i.family.code i.len 0) 15 8 = i.len := by
    rw [pack8_eq, bits_wordOf (by omega)]; omega
  have hkey : keyAt (i.layout ++ others) 1 i.family = i.key := keyAt_words (pre := [i.word]) rfl
  have hfam : familyFor (i.layout ++ others) (others.length + 1) (pack8 i.domain i.family.code i.len 0) = some i.family :=
    familyFor_of_code (bits_pack8_23_16 hd hf hl (by decide)) hlen
  have hdom : bits (pack8 i.domain i.family.code i.len 0) 31 24 = i.domain := bits_pack8_31_24 hd hf hl (by decide)
  simp only [identityOf, hword, hdom, inRange_val, hfam, hlenbits, atMost_of_le hi, hkey, Option.bind_eq_bind, Option.bind_some]

theorem targetOf_word {t : Target} (ht : t.inRange) : targetOf t.word = some t := by
  cases t with
  | pathSet i =>
    have hi : i ≤ 4095 := ht
    have hk : bits (wordOf (1 * 2 ^ 24 + i)) 31 24 = 1 := by rw [bits_wordOf (by omega)]; omega
    have hid : bits (wordOf (1 * 2 ^ 24 + i)) 15 0 = i := by rw [bits_wordOf (by omega)]; omega
    simp only [targetOf, Target.word, hk, hid, atMost_of_le hi, Option.map_some]
  | exit i =>
    have hi : i ≤ 8191 := ht
    have hk : bits (wordOf (2 * 2 ^ 24 + i)) 31 24 = 2 := by rw [bits_wordOf (by omega)]; omega
    have hid : bits (wordOf (2 * 2 ^ 24 + i)) 15 0 = i := by rw [bits_wordOf (by omega)]; omega
    simp only [targetOf, Target.word, hk, hid, atMost_of_le hi, Option.map_some]
  | discard => rfl
  | control => rfl

theorem attributes_read (c : RouteClass) (tag : BitVec 16) {others : Nat} (ho : others < 256) :
    attrClass (wordOf (c.code * 2 ^ 24 + others * 2 ^ 16 + tag.toNat)) = some c ∧
    attrTag (wordOf (c.code * 2 ^ 24 + others * 2 ^ 16 + tag.toNat)) = tag := by
  have hc := c.code_lt
  have ht := tag.isLt
  have hcls : bits (wordOf (c.code * 2 ^ 24 + others * 2 ^ 16 + tag.toNat)) 31 24 = c.code := by
    rw [bits_wordOf (by omega)]; omega
  have htag : bits (wordOf (c.code * 2 ^ 24 + others * 2 ^ 16 + tag.toNat)) 15 0 = tag.toNat := by
    rw [bits_wordOf (by omega)]; omega
  exact ⟨by rw [attrClass, hcls, classOf_code], by rw [attrTag, htag, BitVec.ofNat_toNat, BitVec.setWidth_eq]⟩

/-! ### The fields of the commands (R196 to R198) -/

theorem addrOf_words (a : BitVec 48) {low : Nat} (hl : low < 65536) :
    addrOf (a.extractLsb' 16 32) (pack16 (a.extractLsb' 0 16).toNat low) = a := by
  have ha := a.isLt
  have hlo : (a.extractLsb' 0 16).toNat = a.toNat % 65536 := by simp
  have hhi : (a.extractLsb' 16 32).toNat = a.toNat / 65536 % 2 ^ 32 := by simp [Nat.shiftRight_eq_div_pow]
  have hbits : bits (pack16 (a.extractLsb' 0 16).toNat low) 31 16 = a.toNat % 65536 := by
    rw [pack16_eq, hlo, bits_wordOf (by omega)]; omega
  apply BitVec.eq_of_toNat_eq
  rw [addrOf, hbits, hhi, BitVec.toNat_ofNat]
  omega

/-- A field with its presence code. -/
theorem whenSelected_present {α : Type} {x : Option α} {v : Option α} (h : ∀ a, x = some a → v = some a) :
    whenSelected x.isSome v = some x := by
  cases x with
  | none => rfl
  | some a => simp [whenSelected, h a rfl]

theorem exitCreateFields_layout {e : Exit} (hid : e.id ≤ 8191) (hv : ∀ v, e.vlan = some v → 1 ≤ v ∧ v ≤ 4094)
    (hm : 64 ≤ e.mtu) (hm' : e.mtu ≤ 16383) :
    exitCreateFields e.layout = some { e with routeRefs := 0, memberRefs := 0, pinRefs := 0, users := [] } := by
  have hen := enabledCode_lt e.enabled
  have hp := e.port.isLt
  have hb := bitCode_le e.vlan.isSome
  have hvl : e.vlan.getD 0 < 65536 := by
    cases h : e.vlan with
    | none => simp
    | some v => have := hv v h; simp; omega
  have ha := (e.addr.extractLsb' 0 16).isLt
  have h0 : bits (wordOf (e.id * 2 ^ 16 + enabledCode e.enabled * 2 ^ 8 + e.port.val)) 31 16 = e.id := by
    rw [bits_wordOf (by omega)]; omega
  have h1 : bits (wordOf (e.id * 2 ^ 16 + enabledCode e.enabled * 2 ^ 8 + e.port.val)) 15 8 = enabledCode e.enabled := by
    rw [bits_wordOf (by omega)]; omega
  have h2 : bits (wordOf (e.id * 2 ^ 16 + enabledCode e.enabled * 2 ^ 8 + e.port.val)) 7 0 = e.port.val := by
    rw [bits_wordOf (by omega)]; omega
  have h3 : bits (wordOf (bitCode e.vlan.isSome * 2 ^ 24 + e.mtu)) 31 24 = bitCode e.vlan.isSome := by
    rw [bits_wordOf (by omega)]; omega
  have h4 : bits (wordOf (bitCode e.vlan.isSome * 2 ^ 24 + e.mtu)) 15 0 = e.mtu := by
    rw [bits_wordOf (by omega)]; omega
  have h5 : bits (pack16 (e.addr.extractLsb' 0 16).toNat (e.vlan.getD 0)) 15 0 = e.vlan.getD 0 := by
    rw [pack16_eq, bits_wordOf (by omega)]; omega
  have hvlan : whenSelected e.vlan.isSome (vlanOf (e.vlan.getD 0)) = some e.vlan :=
    whenSelected_present fun v h => by simp [h, vlanOf, hv v h]
  have hmtu : mtuOf e.mtu = some e.mtu := if_pos ⟨hm, hm'⟩
  simp only [exitCreateFields, Exit.layout, param, List.getD_cons_zero, List.getD_cons_succ, exitIdOf, h0, h1, h2, h3, h4, h5,
    atMost_of_le hid, enabledOf_enabledCode, inRange_val, bitOf_bitCode, hvlan, hmtu, addrOf_words e.addr hvl,
    Option.bind_eq_bind, Option.bind_some]

theorem readAll_map {α β : Type} {f : α → Option β} {g : β → α} {l : List β} (h : ∀ x ∈ l, f (g x) = some x) :
    readAll f (l.map g) = some l := by
  induction l with
  | nil => rfl
  | cons x xs ih =>
    simp only [List.map_cons, readAll, h x List.mem_cons_self, ih fun y hy => h y (List.mem_cons_of_mem _ hy), Option.bind_some,
      Option.map_some]

theorem memberEntryOf_word {x : Nat × Nat} (hx : x.1 ≤ 8191 ∧ 1 ≤ x.2 ∧ x.2 ≤ 15) :
    memberEntryOf (wordOf (x.1 * 2 ^ 16 + x.2)) = some x := by
  obtain ⟨he, hw, hw'⟩ := hx
  have h0 : bits (wordOf (x.1 * 2 ^ 16 + x.2)) 31 16 = x.1 := by rw [bits_wordOf (by omega)]; omega
  have h1 : bits (wordOf (x.1 * 2 ^ 16 + x.2)) 7 0 = x.2 := by rw [bits_wordOf (by omega)]; omega
  simp only [memberEntryOf, exitIdOf, weightOf, h0, h1, atMost_of_le he, if_pos (And.intro hw hw'), Option.bind_eq_bind,
    Option.bind_some]

theorem setCreateFields_layout {c : SetCreate} (hid : c.id ≤ 4095) (hb : ∀ b, c.backup = some b → b ≤ 4095)
    (he : ∀ x ∈ c.entries, x.1 ≤ 8191 ∧ 1 ≤ x.2 ∧ x.2 ≤ 15) : setCreateFields c.layout = some c := by
  have hr := c.rejoin.code_lt
  have hv := c.emptyVerdict.code_lt
  have hp := bitCode_le c.backup.isSome
  have hbl : c.backup.getD 0 ≤ 4095 := by
    cases h : c.backup with
    | none => simp
    | some b => simpa using hb b h
  have h0 : bits (wordOf (c.id * 2 ^ 16 + c.rejoin.code * 2 ^ 8 + c.emptyVerdict.code)) 31 16 = c.id := by
    rw [bits_wordOf (by omega)]; omega
  have h1 : bits (wordOf (c.id * 2 ^ 16 + c.rejoin.code * 2 ^ 8 + c.emptyVerdict.code)) 15 8 = c.rejoin.code := by
    rw [bits_wordOf (by omega)]; omega
  have h2 : bits (wordOf (c.id * 2 ^ 16 + c.rejoin.code * 2 ^ 8 + c.emptyVerdict.code)) 7 0 = c.emptyVerdict.code := by
    rw [bits_wordOf (by omega)]; omega
  have h3 : bits (wordOf (bitCode c.backup.isSome * 2 ^ 24 + c.backup.getD 0)) 31 24 = bitCode c.backup.isSome := by
    rw [bits_wordOf (by omega)]; omega
  have h4 : bits (wordOf (bitCode c.backup.isSome * 2 ^ 24 + c.backup.getD 0)) 15 0 = c.backup.getD 0 := by
    rw [bits_wordOf (by omega)]; omega
  have hbackup : whenSelected c.backup.isSome (atMost Config.maxSetId (c.backup.getD 0)) = some c.backup :=
    whenSelected_present fun b h => by simp [h, atMost, Config.maxSetId, hb b h]
  have hentries : readAll memberEntryOf (c.entries.map fun x => wordOf (x.1 * 2 ^ 16 + x.2)) = some c.entries :=
    readAll_map fun x hx => memberEntryOf_word (he x hx)
  simp only [setCreateFields, SetCreate.layout, param, List.getD_cons_zero, List.getD_cons_succ, setIdOf, h0, h1, h2, h3, h4,
    atMost_of_le hid, rejoinOf_code, dropVerdictOf_code, bitOf_bitCode, hbackup, List.drop_succ_cons, List.drop_zero, hentries,
    Option.bind_eq_bind, Option.bind_some]

/-- SET CHANGE's words: each field with its selection code. -/
theorem setChangeFields_words {id selRejoin selVerdict selBackup rejoin verdict backup : Nat} {c : SetChange} (hid : id ≤ 4095)
    (hr : (selRejoin = 0 ∧ c.rejoin = none ∧ rejoin = 0) ∨ (selRejoin = 1 ∧ ∃ x, c.rejoin = some x ∧ rejoin = x.code))
    (hv : (selVerdict = 0 ∧ c.emptyVerdict = none ∧ verdict = 0) ∨
      (selVerdict = 1 ∧ ∃ x, c.emptyVerdict = some x ∧ verdict = x.code))
    (hb : (selBackup = 0 ∧ c.backup = none ∧ backup = 0) ∨ (selBackup = 1 ∧ c.backup = some (some backup) ∧ backup ≤ 4095) ∨
      (selBackup = 2 ∧ c.backup = some none ∧ backup = 0)) :
    setChangeFields [wordOf (id * 2 ^ 16), pack8 selRejoin selVerdict selBackup 0,
      wordOf (rejoin * 2 ^ 24 + verdict * 2 ^ 16 + backup)] = some (id, c) := by
  have hrl : selRejoin < 256 ∧ rejoin < 256 := by
    rcases hr with ⟨rfl, -, rfl⟩ | ⟨rfl, x, -, rfl⟩
    · decide
    · exact ⟨by decide, x.code_lt⟩
  have hvl : selVerdict < 256 ∧ verdict < 256 := by
    rcases hv with ⟨rfl, -, rfl⟩ | ⟨rfl, x, -, rfl⟩
    · decide
    · exact ⟨by decide, x.code_lt⟩
  have hbl : selBackup < 256 ∧ backup ≤ 4095 := by
    rcases hb with ⟨rfl, -, rfl⟩ | ⟨rfl, -, h⟩ | ⟨rfl, -, rfl⟩
    · decide
    · exact ⟨by decide, h⟩
    · decide
  have h0 : bits (wordOf (id * 2 ^ 16)) 31 16 = id := by rw [bits_wordOf (by omega)]; omega
  have h1 : bits (pack8 selRejoin selVerdict selBackup 0) 15 8 = selBackup := by
    rw [pack8_eq, bits_wordOf (by omega)]; omega
  have h2 : bits (wordOf (rejoin * 2 ^ 24 + verdict * 2 ^ 16 + backup)) 31 24 = rejoin := by rw [bits_wordOf (by omega)]; omega
  have h3 : bits (wordOf (rejoin * 2 ^ 24 + verdict * 2 ^ 16 + backup)) 23 16 = verdict := by rw [bits_wordOf (by omega)]; omega
  have h4 : bits (wordOf (rejoin * 2 ^ 24 + verdict * 2 ^ 16 + backup)) 15 0 = backup := by rw [bits_wordOf (by omega)]; omega
  have hrejoin : ∃ sel, bitOf selRejoin = some sel ∧ whenSelected sel (rejoinOf rejoin) = some c.rejoin := by
    rcases hr with ⟨rfl, h, -⟩ | ⟨rfl, x, h, rfl⟩
    · exact ⟨false, rfl, by rw [h]; rfl⟩
    · exact ⟨true, rfl, by rw [h, rejoinOf_code]; rfl⟩
  have hverdict : ∃ sel, bitOf selVerdict = some sel ∧ whenSelected sel (dropVerdictOf verdict) = some c.emptyVerdict := by
    rcases hv with ⟨rfl, h, -⟩ | ⟨rfl, x, h, rfl⟩
    · exact ⟨false, rfl, by rw [h]; rfl⟩
    · exact ⟨true, rfl, by rw [h, dropVerdictOf_code]; rfl⟩
  have hbackup : ∃ sel x, selectionOf selBackup = some sel ∧ whenSelected (sel == .write) (atMost Config.maxSetId backup) = some x ∧
      (if sel == .keep then none else some x) = c.backup := by
    rcases hb with ⟨rfl, h, -⟩ | ⟨rfl, h, hle⟩ | ⟨rfl, h, -⟩
    · exact ⟨.keep, none, rfl, rfl, h.symm⟩
    · exact ⟨.write, some backup, rfl, by rw [atMost_of_le hle]; rfl, h.symm⟩
    · exact ⟨.makeAbsent, none, rfl, rfl, h.symm⟩
  obtain ⟨sr, hsr, hsr'⟩ := hrejoin
  obtain ⟨sv, hsv, hsv'⟩ := hverdict
  obtain ⟨sb, x, hsb, hsb', hx⟩ := hbackup
  simp only [setChangeFields, param, List.getD_cons_zero, List.getD_cons_succ, setIdOf, h0, h1, h2, h3, h4,
    bits_pack8_31_24 hrl.1 hvl.1 hbl.1 (by decide : 0 < 256), bits_pack8_23_16 hrl.1 hvl.1 hbl.1 (by decide : 0 < 256),
    atMost_of_le hid, hsr, hsr', hsv, hsv', hsb, hsb', hx, Option.bind_eq_bind, Option.bind_some]

theorem probeFields_words (a : Ask) :
    probeFields (pack8 a.domain a.key.family.code (bitCode a.mark) 0 :: wordOf a.hash.toNat :: a.key.toWords) = some a := by
  have hd : a.domain.val < 256 := Nat.lt_of_lt_of_le a.domain.isLt (by decide)
  have hf := a.key.family.code_lt
  have hm : bitCode a.mark < 256 := Nat.lt_of_le_of_lt (bitCode_le _) (by decide)
  have hh : a.hash.toNat < 65536 := a.hash.isLt
  have h0 : bits (pack8 a.domain a.key.family.code (bitCode a.mark) 0) 15 8 = bitCode a.mark := by
    rw [pack8_eq, bits_wordOf (by omega)]; omega
  have h1 : (wordOf a.hash.toNat).toNat = a.hash.toNat := by
    rw [wordOf, BitVec.toNat_ofNat, Nat.mod_eq_of_lt (by omega)]
  have hkey := keyAt_words (pre := [pack8 a.domain a.key.family.code (bitCode a.mark) 0, wordOf a.hash.toNat]) (k := a.key) (more := []) rfl
  rw [List.append_nil] at hkey
  have hfam : familyFor (pack8 a.domain a.key.family.code (bitCode a.mark) 0 :: wordOf a.hash.toNat :: a.key.toWords) 2
      (pack8 a.domain a.key.family.code (bitCode a.mark) 0) = some a.key.family :=
    familyFor_of_code (bits_pack8_23_16 hd hf hm (by decide)) (by simp [Key.toWords_length_eq])
  have hdom : bits (pack8 a.domain a.key.family.code (bitCode a.mark) 0) 31 24 = a.domain := bits_pack8_31_24 hd hf hm (by decide)
  simp only [probeFields, param, List.getD_cons_zero, List.getD_cons_succ, hdom, inRange_val, hfam, h0, bitOf_bitCode, h1,
    atMost_of_le (show a.hash.toNat ≤ 65535 by omega), Option.bind_eq_bind, Option.bind_some, BitVec.ofNat_toNat, BitVec.setWidth_eq]
  exact congrArg (fun k => some (Ask.mk a.domain a.mark a.hash k)) hkey

theorem jobSpecOf_refill {first last : Nat} (h : (JobSpec.refill first last).inRange) :
    jobSpecOf [wordOf (2 * 2 ^ 24), pack16 first last] = some (.refill first last) := by
  obtain ⟨hle, hlast⟩ : first ≤ last ∧ last ≤ 4095 := h
  have h0 : bits (pack16 first last) 31 16 = first := by rw [pack16_eq, bits_wordOf (by omega)]; omega
  have h1 : bits (pack16 first last) 15 0 = last := by rw [pack16_eq, bits_wordOf (by omega)]; omega
  have hk : bits (wordOf (2 * 2 ^ 24)) 31 24 = 2 := by decide
  simp only [jobSpecOf, param, List.getD_cons_zero, List.getD_cons_succ, hk, h0, h1, atMost_of_le hlast,
    atMost_of_le (Nat.le_trans hle hlast), if_pos hle, Option.bind_eq_bind, Option.bind_some]
  rfl

/-! ### SURVEY's words (R131, R198) -/

/-- The presence bits of a filter's fields. -/
def Filter.presence (f : Filter) : Nat :=
  bitCode f.domain.isSome + 2 * bitCode f.family.isSome + 4 * bitCode f.cover.isSome + 8 * bitCode f.target.isSome +
    16 * bitCode f.cls.isSome

theorem Filter.presence_lt (f : Filter) : f.presence < 256 := by
  have h0 := bitCode_le f.domain.isSome
  have h1 := bitCode_le f.family.isSome
  have h2 := bitCode_le f.cover.isSome
  have h3 := bitCode_le f.target.isSome
  have h4 := bitCode_le f.cls.isSome
  unfold Filter.presence
  omega

theorem bitCode_beq (b : Bool) : (bitCode b == 1) = b := by cases b <;> rfl

section
variable (f : Filter) {kind action len : Nat} (hk : kind < 256) (ha : action < 256) (hl : len < 256) (rest : List Word)
include hk ha hl

/-- A presence bit is that of its field. -/
theorem Filter.present_words :
    present (pack8 kind action f.presence len :: rest) 8 = f.domain.isSome ∧
    present (pack8 kind action f.presence len :: rest) 9 = f.family.isSome ∧
    present (pack8 kind action f.presence len :: rest) 10 = f.cover.isSome ∧
    present (pack8 kind action f.presence len :: rest) 11 = f.target.isSome ∧
    present (pack8 kind action f.presence len :: rest) 12 = f.cls.isSome := by
  have hp := f.presence_lt
  have hn : kind * 2 ^ 24 + action * 2 ^ 16 + f.presence * 2 ^ 8 + len < 2 ^ 32 := by omega
  have h0 := bitCode_le f.domain.isSome
  have h1 := bitCode_le f.family.isSome
  have h2 := bitCode_le f.cover.isSome
  have h3 := bitCode_le f.target.isSome
  have h4 := bitCode_le f.cls.isSome
  have hbit : ∀ {b : Nat} {x : Bool}, bits (pack8 kind action f.presence len) b b = bitCode x →
      present (pack8 kind action f.presence len :: rest) b = x := fun {b x} h =>
    (congrArg (· == 1) h).trans (bitCode_beq x)
  refine ⟨hbit ?_, hbit ?_, hbit ?_, hbit ?_, hbit ?_⟩
  all_goals
    rw [pack8_eq, bits_wordOf hn, Filter.presence]
    omega

end

/-- SURVEY's words, field by field: what stands where a field is given. -/
theorem surveyWords_eq (f : Filter) (a : Action) : ∃ d fam cls len t t' key, surveyWords f a =
      pack8 1 a.code f.presence len :: pack8 d fam cls 0 :: t :: t' :: key ∧ key.length = 4 ∧
      d < 256 ∧ fam < 256 ∧ cls < 256 ∧ (∀ x, f.domain = some x → d = x.val) ∧ (∀ x, f.family = some x → fam = x.code) ∧
      (∀ x, f.cls = some x → cls = x.code) ∧ (∀ x, f.target = some x → t = x.word) ∧
      (∀ c, f.cover = some c → len = c.2 ∧ ∃ more, key = c.1.toWords ++ more) ∧ (f.cover = none → len = 0) ∧
      (∀ x, a = .repoint x → t' = x.word) ∧ ((∀ x, a ≠ .repoint x) → t' = 0#32) := by
  refine ⟨_, _, _, _, _, _, _, rfl, ?_, ?_, ?_, ?_, ?_, ?_, ?_, ?_, ?_, ?_, ?_, ?_⟩
  · rcases f.cover with _ | ⟨_ | _, _⟩ <;> rfl
  · cases f.domain with
    | none => decide
    | some d => exact Nat.lt_of_lt_of_le d.isLt (by decide)
  · cases f.family with
    | none => decide
    | some x => exact x.code_lt
  · cases f.cls with
    | none => decide
    | some x => exact x.code_lt
  · intro x hx; simp only [hx]
  · intro x hx; simp only [hx]
  · intro x hx; simp only [hx]
  · intro x hx; simp only [hx]
  · intro c hc
    simp only [hc, true_and]
    rcases c with ⟨k | k, n⟩
    · exact ⟨[0#32, 0#32, 0#32], rfl⟩
    · exact ⟨[], (List.append_nil _).symm⟩
  · intro hc; simp only [hc]
  · intro x hx; simp only [hx]
  · intro hx
    cases a with
    | repoint t => exact absurd rfl (hx t)
    | _ => rfl

theorem actionOf_words {a : Action} {ps : List Word} (hb : bits (param ps 0) 23 16 = a.code)
    (ht : ∀ x, a = .repoint x → param ps 3 = x.word ∧ x.inRange ∧ x ≠ .discard ∧ x ≠ .control)
    (h0 : (∀ x, a ≠ .repoint x) → param ps 3 = 0#32) : actionOf ps = some a := by
  have hz : bits (0#32) 31 24 = 0 := by decide
  unfold actionOf
  dsimp only
  rw [hb]
  cases a with
  | repoint x =>
    obtain ⟨hw, hr, hd, hc⟩ := ht x rfl
    rw [hw, targetOf_word hr]
    cases x with
    | pathSet i | exit i => rfl
    | discard => exact absurd rfl hd
    | control => exact absurd rfl hc
  | count | retire | sweep | clearMarks =>
    rw [h0 (by simp)]
    simp [Action.code, hz]

theorem jobSpecOf_survey {f : Filter} {a : Action} (h : (JobSpec.survey f a).inRange) :
    jobSpecOf (surveyWords f a) = some (.survey f a) := by
  obtain ⟨htarget, hcover, hrepoint⟩ := h
  obtain ⟨d, fam, cls, len, t, t', key, hw, hkl, hd, hfam, hcls, hdv, hfamv, hclsv, htv, hcv, hcn, hrv, hrn⟩ := surveyWords_eq f a
  rw [hw]
  have hac : a.code < 256 := by cases a <;> simp [Action.code]
  have hlen : len < 256 := by
    cases hc : f.cover with
    | none => rw [hcn hc]; decide
    | some c =>
      have := (hcover c hc).2
      have := c.1.family.width_le
      have := (hcv c hc).1
      omega
  have hkind : bits (pack8 1 a.code f.presence len) 31 24 = 1 := bits_pack8_31_24 (by decide) hac f.presence_lt hlen
  have hact : bits (pack8 1 a.code f.presence len) 23 16 = a.code := bits_pack8_23_16 (by decide) hac f.presence_lt hlen
  have hlenb : bits (pack8 1 a.code f.presence len) 7 0 = len := by
    have := f.presence_lt
    rw [pack8_eq, bits_wordOf (by omega)]; omega
  have hclsb : bits (pack8 d fam cls 0) 15 8 = cls := by rw [pack8_eq, bits_wordOf (by omega)]; omega
  obtain ⟨hp8, hp9, hp10, hp11, hp12⟩ := f.present_words (kind := 1) (by decide) hac hlen (pack8 d fam cls 0 :: t :: t' :: key)
  have hdom : whenSelected f.domain.isSome (inRange 16 d) = some f.domain :=
    whenSelected_present fun x hx => by rw [hdv x hx, inRange_val]
  have hfamily : whenSelected f.family.isSome (familyOf fam) = some f.family :=
    whenSelected_present fun x hx => by rw [hfamv x hx, familyOf_code]
  have hcov : whenSelected f.cover.isSome
      (coverOf (pack8 1 a.code f.presence len :: pack8 d fam cls 0 :: t :: t' :: key) f.family) = some f.cover :=
    whenSelected_present fun c hc => by
      obtain ⟨hlc, more, hk⟩ := hcv c hc
      obtain ⟨hfc, hle⟩ := hcover c hc
      have hkey := keyAt_words (pre := [pack8 1 a.code f.presence len, pack8 d fam cls 0, t, t']) (k := c.1) (more := more) rfl
      simp only [coverOf, hfc, param, List.getD_cons_zero, hlenb, Option.bind_eq_bind]
      rw [← hlc] at hle
      rw [Option.bind_some, atMost_of_le hle, Option.bind_some, hk, hlc]
      rw [hlc] at hkey
      exact congrArg (fun k => some (k, c.2)) hkey
  have htgt : whenSelected f.target.isSome (targetOf t) = some f.target :=
    whenSelected_present fun x hx => by rw [htv x hx, targetOf_word (htarget x hx)]
  have hclass : whenSelected f.cls.isSome (classOf cls) = some f.cls :=
    whenSelected_present fun x hx => by rw [hclsv x hx, classOf_code]
  have hfilter : filterOf (pack8 1 a.code f.presence len :: pack8 d fam cls 0 :: t :: t' :: key) = some f := by
    simp only [filterOf, hp8, hp9, hp10, hp11, hp12, param, List.getD_cons_zero, List.getD_cons_succ,
      bits_pack8_31_24 hd hfam hcls (by decide : 0 < 256), bits_pack8_23_16 hd hfam hcls (by decide : 0 < 256), hclsb, hdom, hfamily,
      hcov, htgt, hclass, Option.bind_eq_bind, Option.bind_some]
  have haction : actionOf (pack8 1 a.code f.presence len :: pack8 d fam cls 0 :: t :: t' :: key) = some a :=
    actionOf_words hact (fun x hx => ⟨hrv x hx, hrepoint x hx⟩) hrn
  have hlength : (pack8 1 a.code f.presence len :: pack8 d fam cls 0 :: t :: t' :: key).length = 8 := by simp [hkl]
  rw [jobSpecOf, if_pos ⟨hkind, hlength⟩, hfilter, haction]
  rfl

/-- Settles O10. -/
theorem operandLayoutsAreRead : Obligations.OperandLayoutsAreRead := by
  refine ⟨fun i others hi => identityOf_layout others hi, Identity.keyOk_iff, fun t ht => targetOf_word ht,
    fun e hid hv hm hm' => exitCreateFields_layout hid hv hm hm', fun c hid hb he => setCreateFields_layout hid hb he,
    fun c tag others ho => attributes_read c tag ho, fun id c hid hb => setChangeFields_words hid ?_ ?_ ?_, fun a => ?_,
    fun f a h => jobSpecOf_survey h, fun first last h => jobSpecOf_refill h⟩
  · cases h : c.rejoin with
    | none => exact .inl ⟨rfl, rfl, rfl⟩
    | some x => exact .inr ⟨rfl, x, rfl, rfl⟩
  · cases h : c.emptyVerdict with
    | none => exact .inl ⟨rfl, rfl, rfl⟩
    | some x => exact .inr ⟨rfl, x, rfl, rfl⟩
  · rcases h : c.backup with _ | _ | b
    · exact .inl ⟨rfl, rfl, rfl⟩
    · exact .inr (.inr ⟨rfl, rfl, rfl⟩)
    · exact .inr (.inl ⟨rfl, rfl, hb b h⟩)
  · have h := probeFields_words a
    rcases a with ⟨d, m, hash, k | k⟩ <;> exact h

/-! ### The messages of a lane (R188 to R190) -/

theorem passesCheck_append (ws : List Word) (c : Word) : passesCheck (ws ++ [c]) = true ↔
    1 ≤ ws.length ∧ ws.length ≤ 6 ∧ bits c 15 0 = (crc16 ws).toNat := by
  have hlast : (ws ++ [c]).getLastD 0#32 = c := by simp [List.getLastD_eq_getLast?]
  have hdrop : (ws ++ [c]).dropLast = ws := by simp
  simp only [passesCheck, hlast, hdrop, Bool.and_eq_true, decide_eq_true_eq, List.length_append, List.length_singleton, beq_iff_eq]
  omega

/-- The check word that R189 appends passes. -/
theorem passesCheck_withCheckWord {ws : List Word} (h : 1 ≤ ws.length) (h' : ws.length ≤ 6) :
    passesCheck (withCheckWord ws) = true := by
  refine (passesCheck_append ws _).mpr ⟨h, h', ?_⟩
  have := (crc16 ws).isLt
  rw [bits_eq, BitVec.toNat_setWidth]
  omega

section
variable {n : Fin 4} {ws : List Word} {w : Word}

theorem receiveMessage_checkFailure (h : passesCheck ws = false) : receiveMessage n ws = .checkFailure n ws := by
  simp [receiveMessage, h]

theorem receiveMessage_malformed (h : passesCheck ws = true) (hm : isMalformed ws = true) :
    receiveMessage n ws = .malformedMessage n ws := by
  simp [receiveMessage, h, hm]

theorem receiveMessage_port (h : passesCheck ws = true) (hk : messageKind ws = 2) (hc : messageCode ws = 1 ∨ messageCode ws = 2)
    (hl : ws.length = 2) : receiveMessage n ws =
      .port n (Fin.ofNat 64 (bits (ws.headD 0#32) 5 0)) (if messageCode ws = 1 then .live else .dead) := by
  have hm : isMalformed ws = false := by rcases hc with hc | hc <;> simp [isMalformed, hk, hc, hl]
  simp [receiveMessage, h, hm, hk]

theorem receiveMessage_lookupN (h : passesCheck ws = true) (hk : messageKind ws = 1) (hc : messageCode ws = 1)
    (hl : ws.length = 4) : receiveMessage n ws =
      .lookupN n (messageTag ws) (messageDomain ws) (messageMark ws) (messageHash ws) (ws.getD 2 0#32) := by
  have hm : isMalformed ws = false := by simp [isMalformed, hk, hc, hl]
  simp [receiveMessage, h, hm, hk, hc]

theorem receiveMessage_lookupW (h : passesCheck ws = true) (hk : messageKind ws = 1) (hc : messageCode ws = 2)
    (hl : ws.length = 7) : receiveMessage n ws =
      .lookupW n (messageTag ws) (messageDomain ws) (messageMark ws) (messageHash ws)
        (wideKey (ws.getD 2 0#32) (ws.getD 3 0#32) (ws.getD 4 0#32) (ws.getD 5 0#32)) := by
  have hm : isMalformed ws = false := by simp [isMalformed, hk, hc, hl]
  simp [receiveMessage, h, hm, hk, hc]

end

/-- The first word of a lookup, of family code `fam`. -/
def lookupWord (fam : Nat) (tag : Byte) (d : Fin 16) (mark : Bool) : Word :=
  wordOf (1 * 2 ^ 28 + fam * 2 ^ 26 + bitCode mark * 2 ^ 25 + d.val * 2 ^ 16 + tag.toNat)

theorem lookupWord_fields {fam : Nat} (hf : fam ≤ 3) (tag : Byte) (d : Fin 16) (mark : Bool) :
    bits (lookupWord fam tag d mark) 31 28 = 1 ∧ bits (lookupWord fam tag d mark) 27 26 = fam ∧
    bits (lookupWord fam tag d mark) 25 25 = bitCode mark ∧ bits (lookupWord fam tag d mark) 19 16 = d.val ∧
    bits (lookupWord fam tag d mark) 7 0 = tag.toNat := by
  have ht : tag.toNat < 256 := tag.isLt
  have hd := d.isLt
  have hm := bitCode_le mark
  have hn : 1 * 2 ^ 28 + fam * 2 ^ 26 + bitCode mark * 2 ^ 25 + d.val * 2 ^ 16 + tag.toNat < 2 ^ 32 := by omega
  refine ⟨?_, ?_, ?_, ?_, ?_⟩
  all_goals
    rw [lookupWord, bits_wordOf hn]
    omega

/-- What a lookup's first two words give of it. -/
theorem lookup_header {fam : Nat} (hf : fam ≤ 3) (tag : Byte) (d : Fin 16) (mark : Bool) (hash : BitVec 16) {ws : List Word} :
    let msg := lookupWord fam tag d mark :: wordOf hash.toNat :: ws
    messageKind msg = 1 ∧ messageCode msg = fam ∧ messageTag msg = tag ∧ messageDomain msg = d ∧ messageMark msg = mark ∧
      messageHash msg = hash := by
  obtain ⟨hkind, hcode, hmark, hdom, htag⟩ := lookupWord_fields hf tag d mark
  have hh : hash.toNat < 65536 := hash.isLt
  have hhash : bits (wordOf hash.toNat) 15 0 = hash.toNat := by rw [bits_wordOf (by omega)]; omega
  refine ⟨hkind, hcode, ?_, ?_, ?_, ?_⟩
  · rw [messageTag, List.headD_cons, htag, BitVec.ofNat_toNat, BitVec.setWidth_eq]
  · rw [messageDomain, List.headD_cons, hdom, Fin.ofNat_val_eq_self]
  · rw [messageMark, List.headD_cons, hmark, bitCode_beq]
  · rw [messageHash, List.getD_cons_succ, List.getD_cons_zero, hhash, BitVec.ofNat_toNat, BitVec.setWidth_eq]

theorem receive_lookupN (n : Fin 4) (tag : Byte) (d : Fin 16) (mark : Bool) (hash : BitVec 16) (key : BitVec 32) :
    receiveMessage n (withCheckWord [lookupWord 1 tag d mark, wordOf hash.toNat, key]) = .lookupN n tag d mark hash key := by
  obtain ⟨hk, hc, ht, hd, hm, hh⟩ := lookup_header (fam := 1) (by decide) tag d mark hash
    (ws := [key, BitVec.zeroExtend 32 (crc16 [lookupWord 1 tag d mark, wordOf hash.toNat, key])])
  have hr := receiveMessage_lookupN (n := n)
    (passesCheck_withCheckWord (ws := [lookupWord 1 tag d mark, wordOf hash.toNat, key]) (by simp) (by simp)) hk hc rfl
  rw [hr]
  exact congr (congr (congr (congr (congrArg _ ht) hd) hm) hh) rfl

theorem receive_lookupW (n : Fin 4) (tag : Byte) (d : Fin 16) (mark : Bool) (hash : BitVec 16) (key : BitVec 128) :
    receiveMessage n (withCheckWord (lookupWord 2 tag d mark :: wordOf hash.toNat :: (Key.wide key).toWords)) =
      .lookupW n tag d mark hash key := by
  obtain ⟨hk, hc, ht, hd, hm, hh⟩ := lookup_header (fam := 2) (by decide) tag d mark hash (ws := (Key.wide key).toWords ++
    [BitVec.zeroExtend 32 (crc16 (lookupWord 2 tag d mark :: wordOf hash.toNat :: (Key.wide key).toWords))])
  have hr := receiveMessage_lookupW (n := n)
    (passesCheck_withCheckWord (ws := lookupWord 2 tag d mark :: wordOf hash.toNat :: (Key.wide key).toWords) (by simp [Key.toWords])
      (by simp [Key.toWords])) hk hc rfl
  rw [hr]
  exact congr (congr (congr (congr (congrArg _ ht) hd) hm) hh) (wideKey_words key)

theorem receive_portWord {n : Fin 4} {p : Fin 64} {w : Word} {code : Nat} (hc : code = 1 ∨ code = 2) (hkind : bits w 31 28 = 2)
    (hcode : bits w 27 26 = code) (hport : bits w 5 0 = p.val) :
    receiveMessage n (withCheckWord [w]) = .port n p (if code = 1 then .live else .dead) := by
  subst hcode
  have hr := receiveMessage_port (n := n) (passesCheck_withCheckWord (ws := [w]) (by simp) (by simp)) hkind hc rfl
  rw [hr, withCheckWord, List.singleton_append, List.headD_cons, hport, Fin.ofNat_val_eq_self]
  rfl

theorem receive_port (n : Fin 4) (p : Fin 64) {code : Nat} (hc : code = 1 ∨ code = 2) :
    receiveMessage n (withCheckWord [wordOf (2 * 2 ^ 28 + code * 2 ^ 26 + p.val)]) =
      .port n p (if code = 1 then .live else .dead) := by
  have hp := p.isLt
  have hn : 2 * 2 ^ 28 + code * 2 ^ 26 + p.val < 2 ^ 32 := by omega
  refine receive_portWord hc ?_ ?_ ?_
  all_goals
    rw [bits_wordOf hn]
    omega

theorem receive_layout {c : Instr} {n : Fin 4} {ws : List Word} (hw : messageLayout c = some ws) (hl : arrivalLane c = some n) :
    receiveMessage n (withCheckWord ws) = c := by
  cases c <;> simp only [messageLayout, reduceCtorEq, Option.some.injEq] at hw
  case lookupN m tag d mark hash key =>
    obtain rfl := Option.some.inj hl
    subst hw
    exact receive_lookupN m tag d mark hash key
  case lookupW m tag d mark hash key =>
    obtain rfl := Option.some.inj hl
    subst hw
    exact receive_lookupW m tag d mark hash key
  case port m p st =>
    obtain rfl := Option.some.inj hl
    subst hw
    cases st with
    | live => exact receive_port m p (.inl rfl)
    | dead => exact receive_port m p (.inr rfl)

theorem passesCheck_false {ws : List Word} (h : ws.length < 2 ∨ 7 < ws.length ∨
    ∃ sent check, ws = sent ++ [check] ∧ bits check 15 0 ≠ (crc16 sent).toNat) : passesCheck ws = false := by
  rcases h with h | h | ⟨sent, check, rfl, h⟩
  · simp [passesCheck, Nat.not_le_of_lt h]
  · simp [passesCheck, Nat.not_le_of_lt h]
  · exact Bool.eq_false_iff.mpr fun hp => h ((passesCheck_append sent check).mp hp).2.2

theorem isMalformed_of {ws : List Word} {w : Word} {rest : List Word} (hw : ws = w :: rest)
    (h : bits w 31 28 ∉ [1, 2] ∨
      (bits w 31 28 = 1 ∧ (bits w 27 26 ∉ [1, 2] ∨ (bits w 27 26 = 1 ∧ ws.length ≠ 4) ∨ (bits w 27 26 = 2 ∧ ws.length ≠ 7))) ∨
      (bits w 31 28 = 2 ∧ (bits w 27 26 ∉ [1, 2] ∨ ws.length ≠ 2))) : isMalformed ws = true := by
  have hk : messageKind ws = bits w 31 28 := by rw [hw]; rfl
  have hc : messageCode ws = bits w 27 26 := by rw [hw]; rfl
  unfold isMalformed
  rw [hk, hc]
  rcases h with h | ⟨h1, h⟩ | ⟨h2, h⟩
  · simp only [List.mem_cons, List.not_mem_nil, or_false, not_or] at h
    rw [if_neg h.1, if_neg h.2]
  · rw [if_pos h1]
    simp only [List.mem_cons, List.not_mem_nil, or_false, not_or] at h
    simp only [Bool.not_eq_true', Bool.or_eq_false_iff, Bool.and_eq_false_iff, beq_eq_false_iff_ne]
    omega
  · rw [if_neg (by omega), if_pos h2]
    simp only [List.mem_cons, List.not_mem_nil, or_false, not_or] at h
    simp only [Bool.not_eq_true', Bool.or_eq_false_iff, Bool.and_eq_false_iff, beq_eq_false_iff_ne]
    omega

/-! ### Framing (R188) -/

theorem receiveSymbols_data (opened ws : List Word) (rest : List Symbol) :
    receiveSymbols (some opened) (ws.map .data ++ rest) = receiveSymbols (some (opened ++ ws)) rest := by
  induction ws generalizing opened with
  | nil => simp
  | cons w ws ih =>
    rw [List.map_cons, List.cons_append, receiveSymbols, Option.map_some, ih, List.append_assoc, List.singleton_append]

theorem receiveSymbols_frame (ws : List Word) (rest : List Symbol) :
    receiveSymbols none (.startMarker :: (ws.map Symbol.data ++ .endMarker :: rest)) =
      (ws :: (receiveSymbols none rest).1, (receiveSymbols none rest).2) := by
  rw [receiveSymbols, receiveSymbols_data]
  rfl

theorem receiveSymbols_abandoned (ws : List Word) (k : Nat) : receiveSymbols none (abandonedFrame ws k) = ([], some (ws.take k)) := by
  have h := receiveSymbols_data [] (ws.take k) []
  rw [List.append_nil] at h
  rw [abandonedFrame, receiveSymbols, h]
  rfl

/-! ### The line of a lane (R91, R185) -/

section
variable {s : State} {n : Fin 4}

theorem State.line_quiet (h : s.dev.phase ≠ .running ∨ (s.lane n).link = .disabled) : s.line n = .quiet := by
  refine if_pos ?_
  simpa [State.running] using h

theorem State.line_idle (hr : s.dev.phase = .running) (hl : (s.lane n).link ≠ .disabled) (hs : (s.lane n).sending = none) :
    s.line n = .idlePattern := by
  simp [State.line, State.running, hr, hl, hs]

theorem State.line_message {m : Sending} (hr : s.dev.phase = .running) (hl : (s.lane n).link ≠ .disabled)
    (hs : (s.lane n).sending = some m) : s.line n = .message (frame (s.lane n).messageWords) := by
  simp [State.line, State.running, hr, hl, hs]

end

/-- Settles O11. -/
theorem messagesAreReceived : Obligations.MessagesAreReceived := by
  refine ⟨fun c n ws hw hl => receive_layout hw hl, fun n ws h => receiveMessage_checkFailure (passesCheck_false h), ?_,
    fun opened w rest => ⟨rfl, rfl, rfl, rfl, rfl, rfl, rfl, rfl⟩, receiveSymbols_frame, fun ws => rfl, receiveSymbols_abandoned,
    fun s n => ⟨State.line_quiet, fun hr hl => ⟨fun hs => ?_, fun c hs => ?_, fun tag ask r rest hs hq => ?_⟩⟩⟩
  · intro n ws w sent check hw hl hl' hcrc h
    refine receiveMessage_malformed ?_ (isMalformed_of hw h)
    rw [hw, List.length_append, List.length_cons, List.length_singleton] at hl hl'
    rw [hw]
    exact (passesCheck_append (w :: sent) check).mpr ⟨by simp, by simp only [List.length_cons]; omega, hcrc⟩
  · exact State.line_idle hr hl hs
  · rw [State.line_message hr hl hs]
    simp only [Lane.messageWords, hs, creditMessage]
  · rw [State.line_message hr hl hs]
    simp only [Lane.messageWords, hs, hq, Result.message]

end Sys2Proof.Machine
end

section
/-! PROOFS. The exit commands, and the commands that read the Path Table (chapter 2). -/

namespace Sys2Proof.Machine

-- The proofs are elaborated one after another: each thread counts against the memory in which the text is checked.
set_option Elab.async false

/-! ### Commands that read ports (R84) -/

section
variable {s : State} {ports : List (Fin 64)} {work : List Bool → State → Reply}

/-- Once all ports are read, the part of the command is made. -/
theorem State.withReads_made (h : ports.length ≤ (s.readsOf ports).2.length) :
    s.withReads ports work = work (s.readsOf ports).2 (s.setPmon (s.readsOf ports).1) := if_neg (Nat.not_lt_of_le h)

theorem State.withReads_left (h : (s.readsOf ports).2.length < ports.length) : s.withReads ports work =
    ((s.setPmon (s.readsOf ports).1).setPt { s.pt.withdraw .command with taken := some (.command (s.readsOf ports).2) }, .waiting) :=
  if_pos h

/-- While a read waits, the command's claim is in progress. -/
theorem exec_reading {c : Instr} {code : Nat} {ps : List Word} (hc : hostCode c = some code) (hw : s.works code ps)
    (hb : hostWork c ps s = s.withReads ports work) (h : (s.readsOf ports).2.length < ports.length) :
    exec c s = .next (s.reading (s.readsOf ports)) := by
  obtain ⟨w, q, hcu, he⟩ := runCommand_left hw (hb.trans (State.withReads_left h)) rfl
  rw [exec_host hc, he, State.reading, hcu]

end

/-! ### Visiting the users of an exit (R40) -/

/-- Sets changed one after another, each under its own ID: what stands of each, and what is left alone. -/
theorem PathTable.foldl_updSet {α : Type} {g : α → PathSet → PathSet} (hg : ∀ a p, (g a p).id = p.id) (l : List (Nat × α))
    (pt : PathTable) :
    let after := l.foldl (fun t x => t.updSet x.1 (g x.2)) pt
    after.exits = pt.exits ∧ after.waiting = pt.waiting ∧ after.taken = pt.taken ∧
      ∀ j, after.set? j = (pt.set? j).map fun p => l.foldl (fun q x => if x.1 = j then g x.2 q else q) p := by
  induction l generalizing pt with
  | nil => simp
  | cons x xs ih =>
    obtain ⟨hexits, hwaiting, htaken, hset⟩ := ih (pt.updSet x.1 (g x.2))
    refine ⟨hexits, hwaiting, htaken, fun j => ?_⟩
    rw [List.foldl_cons, hset, PathTable.updSet_set? _ _ _ (hg x.2), Option.map_map]
    simp only [List.foldl_cons, Function.comp_def, eq_comm]

theorem PathTable.visitUsers_of_exit {pt : PathTable} {id : Nat} {e : Exit} (he : pt.exit? id = some e) (reads : List Bool) :
    pt.visitUsers reads id =
      (e.users.zip reads).foldl (fun t x => t.updSet x.1 (·.memberUpdate id (e.derivedUp x.2))) pt := by
  rw [PathTable.visitUsers, he]

/-- An exit is written and its users visited. -/
theorem PathTable.exitWritten_visitUsers {pt : PathTable} {id : Nat} {e : Exit} (he : pt.exit? id = some e) {f : Exit → Exit}
    (hf : ∀ x, (f x).id = x.id) (reads : List Bool) :
    pt.exitWritten ((pt.updExit id f).visitUsers reads id) reads id (f e) := by
  have hfound : (pt.updExit id f).exit? id = some (f e) := by rw [PathTable.updExit_exit? _ _ _ hf, he]; simp
  obtain ⟨hexits, hwaiting, htaken, hset⟩ := PathTable.foldl_updSet (g := fun live q => q.memberUpdate id ((f e).derivedUp live))
    (fun live q => q.memberUpdate_id id _) ((f e).users.zip reads) (pt.updExit id f)
  rw [PathTable.visitUsers_of_exit hfound]
  refine ⟨hwaiting, htaken, fun j => ?_, hset⟩
  rw [PathTable.exit?, hexits, ← PathTable.exit?, PathTable.updExit_exit? _ _ _ hf]
  by_cases hj : j = id
  · rw [if_pos hj, hj, he]; simp
  · simp [hj]

/-! ### EXIT CHANGE, EXIT ENABLE and EXIT DISABLE (R40, R41) -/

section
variable {ps : List Word} {s : State} {w : ExitWrite} {e : Exit}

theorem changeExit_absent (he : s.pt.exit? w.id = none) : changeExit (some w) s = refuse s .absent := by
  rw [changeExit, he]

theorem changeExit_active (he : s.pt.exit? w.id = some e) : changeExit (some w) s =
    s.withReads (e.users.map fun _ => (w.write e).port) fun reads t =>
      answerOk (t.setPt ((t.pt.updExit w.id w.write).visitUsers reads w.id)) [] := by
  simp only [changeExit, ExitWrite.ports, he]

theorem ExitWrite.ports_eq (he : s.pt.exit? w.id = some e) : w.ports s.pt = e.users.map fun _ => (w.write e).port := by
  rw [ExitWrite.ports, he]

/-- The step of a command that writes an exit, by its reads. -/
theorem exec_changeExit {c : Instr} {code : Nat} (hc : hostCode c = some code) (hw : s.works code ps)
    (hb : hostWork c ps s = changeExit (some w) s) (hf : ∀ x, (w.write x).id = x.id) (he : s.pt.exit? w.id = some e) :
    let r := s.readsOf (e.users.map fun _ => (w.write e).port)
    (r.2.length < e.users.length → exec c s = .next (s.reading r)) ∧
    (e.users.length ≤ r.2.length → ∃ pt', s.pt.exitWritten pt' r.2 w.id (w.write e) ∧
      exec c s = .next (((s.setPmon r.1).setPt pt').answered .ok [])) := by
  rw [changeExit_active he] at hb
  refine ⟨fun hl => exec_reading hc hw hb (by simpa using hl), fun hl => ⟨_, PathTable.exitWritten_visitUsers he hf _, ?_⟩⟩
  rw [State.withReads_made (by simpa using hl)] at hb
  exact exec_answered hc hw hb rfl

theorem exitAdminWrite_of_le {enabled : Bool} (hid : bits (param ps 0) 31 16 ≤ 8191) :
    exitAdminWrite enabled ps = some ⟨bits (param ps 0) 31 16, fun e => { e with enabled := enabled }⟩ := by
  rw [exitAdminWrite, exitIdOf_of_le hid]; rfl

theorem exitChangeFields_id {x : Nat × ExitChange} (h : exitChangeFields ps = some x) : x.1 = bits (param ps 0) 31 16 := by
  simp only [exitChangeFields, Option.bind_eq_bind, Option.bind_eq_some_iff, Option.some.injEq] at h
  obtain ⟨id, hid, -, -, -, -, -, -, -, -, -, -, -, -, -, -, rfl⟩ := h
  rw [exitIdOf, atMost] at hid
  split at hid
  · exact (Option.some.inj hid).symm
  · cases hid

/-- EXIT CHANGE's words give what it writes. -/
theorem exitChangeFields_apply {port : Fin 64} {addr : BitVec 48} {vlan : Option Nat} {mtu : Nat}
    (hid : bits (param ps 0) 31 16 ≤ 8191)
    (hp : (bits (param ps 1) 31 24 = 0 ∧ port = e.port) ∨ (bits (param ps 1) 31 24 = 1 ∧ port.val = bits (param ps 0) 7 0))
    (ha : (bits (param ps 1) 23 16 = 0 ∧ addr = e.addr) ∨
      (bits (param ps 1) 23 16 = 1 ∧ addr = addrOf (param ps 2) (param ps 3)))
    (hv : (bits (param ps 1) 15 8 = 0 ∧ vlan = e.vlan) ∨ (bits (param ps 1) 15 8 = 2 ∧ vlan = none) ∨
      (bits (param ps 1) 15 8 = 1 ∧ vlan = some (bits (param ps 3) 15 0) ∧ 1 ≤ bits (param ps 3) 15 0 ∧
        bits (param ps 3) 15 0 ≤ 4094))
    (hm : (bits (param ps 1) 7 0 = 0 ∧ mtu = e.mtu) ∨
      (bits (param ps 1) 7 0 = 1 ∧ mtu = bits (param ps 4) 15 0 ∧ 64 ≤ mtu ∧ mtu ≤ 16383)) :
    ∃ c, exitChangeFields ps = some (bits (param ps 0) 31 16, c) ∧
      c.apply e = { e with port := port, addr := addr, vlan := vlan, mtu := mtu } := by
  have hport : ∃ sel x, bitOf (bits (param ps 1) 31 24) = some sel ∧
      whenSelected sel (inRange 64 (bits (param ps 0) 7 0)) = some x ∧ x.getD e.port = port := by
    rcases hp with ⟨h0, rfl⟩ | ⟨h1, hval⟩
    · exact ⟨false, none, by rw [h0]; rfl, rfl, rfl⟩
    · exact ⟨true, some port, by rw [h1]; rfl, by rw [← hval, inRange_val]; rfl, rfl⟩
  have haddr : ∃ sel : Bool, bitOf (bits (param ps 1) 23 16) = some sel ∧
      (if sel then some (addrOf (param ps 2) (param ps 3)) else none).getD e.addr = addr := by
    rcases ha with ⟨h0, rfl⟩ | ⟨h1, rfl⟩
    · exact ⟨false, by rw [h0]; rfl, rfl⟩
    · exact ⟨true, by rw [h1]; rfl, rfl⟩
  have hvlan : ∃ sel x, selectionOf (bits (param ps 1) 15 8) = some sel ∧
      whenSelected (sel == .write) (vlanOf (bits (param ps 3) 15 0)) = some x ∧
      (if sel == .keep then none else some x).getD e.vlan = vlan := by
    rcases hv with ⟨h0, rfl⟩ | ⟨h2, rfl⟩ | ⟨h1, rfl, hlo, hhi⟩
    · exact ⟨.keep, none, by rw [h0]; rfl, rfl, rfl⟩
    · exact ⟨.makeAbsent, none, by rw [h2]; rfl, rfl, rfl⟩
    · exact ⟨.write, some (bits (param ps 3) 15 0), by rw [h1]; rfl, by rw [vlanOf, if_pos ⟨hlo, hhi⟩]; rfl, rfl⟩
  have hmtu : ∃ sel x, bitOf (bits (param ps 1) 7 0) = some sel ∧
      whenSelected sel (mtuOf (bits (param ps 4) 15 0)) = some x ∧ x.getD e.mtu = mtu := by
    rcases hm with ⟨h0, rfl⟩ | ⟨h1, rfl, hlo, hhi⟩
    · exact ⟨false, none, by rw [h0]; rfl, rfl, rfl⟩
    · exact ⟨true, some (bits (param ps 4) 15 0), by rw [h1]; rfl, by rw [mtuOf, if_pos ⟨hlo, hhi⟩]; rfl, rfl⟩
  obtain ⟨sp, xp, hsp, hxp, rfl⟩ := hport
  obtain ⟨sa, hsa, rfl⟩ := haddr
  obtain ⟨sv, xv, hsv, hxv, rfl⟩ := hvlan
  obtain ⟨sm, xm, hsm, hxm, rfl⟩ := hmtu
  refine ⟨⟨xp, if sa then some (addrOf (param ps 2) (param ps 3)) else none, if sv == .keep then none else some xv, xm⟩, ?_, rfl⟩
  simp only [exitChangeFields, exitIdOf_of_le hid, hsp, hxp, hsa, hsv, hxv, hsm, hxm, Option.bind_eq_bind, Option.bind_some]

end

/-- Settles O21. -/
theorem exitCommandsVisitUsers : Obligations.ExitCommandsVisitUsers := by
  rintro s ps _ rfl hid
  refine ⟨fun hw he => exec_refused rfl hw ?_, fun hw he => exec_refused rfl hw ?_, fun hw hb he => exec_refused rfl hw ?_,
    fun e he => ⟨fun hw => ⟨?_, ?_⟩, fun hw => ⟨?_, ?_⟩, fun port addr vlan mtu hw hp ha hv hm => ?_⟩⟩
  · exact (congrArg (changeExit · s) (exitAdminWrite_of_le hid)).trans (changeExit_absent he)
  · exact (congrArg (changeExit · s) (exitAdminWrite_of_le hid)).trans (changeExit_absent he)
  · obtain ⟨x, hx⟩ := Option.ne_none_iff_exists'.mp (mt exitChangeFields_eq_none.mp hb)
    have hwrite : exitChangeWrite ps = some ⟨x.1, x.2.apply⟩ := by rw [exitChangeWrite, hx]; rfl
    refine (congrArg (changeExit · s) hwrite).trans (changeExit_absent ?_)
    rw [exitChangeFields_id hx]
    exact he
  · rw [portsRead, exitAdminWrite_of_le hid]
    exact ExitWrite.ports_eq he
  · exact exec_changeExit (c := .exitEnable) rfl hw (congrArg (changeExit · s) (exitAdminWrite_of_le hid)) (fun _ => rfl) he
  · rw [portsRead, exitAdminWrite_of_le hid]
    exact ExitWrite.ports_eq he
  · exact exec_changeExit (c := .exitDisable) rfl hw (congrArg (changeExit · s) (exitAdminWrite_of_le hid)) (fun _ => rfl) he
  · obtain ⟨c, hf, happly⟩ := exitChangeFields_apply hid hp ha hv hm
    have hwrite : exitChangeWrite ps = some ⟨bits (param ps 0) 31 16, c.apply⟩ := by rw [exitChangeWrite, hf]; rfl
    have h := exec_changeExit (c := .exitChange) (w := ⟨_, c.apply⟩) rfl hw (congrArg (changeExit · s) hwrite) (fun _ => rfl) he
    have hports := ExitWrite.ports_eq (w := ⟨_, c.apply⟩) he
    dsimp only at h hports
    rw [happly] at h hports
    refine ⟨?_, h⟩
    rw [portsRead, hwrite]
    exact hports

/-! ### EXIT READ, SET READ and MAP READ (R43, R47, R69) -/

section
variable {ps : List Word} {s : State}

theorem exitReadFields_of_le (hid : bits (param ps 0) 31 16 ≤ 8191) (hst : bits (param ps 1) 15 0 ≤ 4095) :
    exitReadFields ps = some (bits (param ps 0) 31 16, bits (param ps 1) 15 0) := by
  simp only [exitReadFields, exitIdOf_of_le hid, atMost_of_le hst, Option.bind_eq_bind, Option.bind_some]

theorem exitReadWork_absent (hid : bits (param ps 0) 31 16 ≤ 8191) (hst : bits (param ps 1) 15 0 ≤ 4095)
    (he : s.pt.exit? (bits (param ps 0) 31 16) = none) : exitReadWork ps s = refuse s .absent := by
  simp [exitReadWork, exitReadFields_of_le hid hst, he]

theorem PathTable.portOf_eq {pt : PathTable} {id : Nat} {e : Exit} (he : pt.exit? id = some e) : pt.portOf id = [e.port] := by
  simp [PathTable.portOf, he]

theorem exitReadWork_active {e : Exit} (hid : bits (param ps 0) 31 16 ≤ 8191) (hst : bits (param ps 1) 15 0 ≤ 4095)
    (he : s.pt.exit? (bits (param ps 0) 31 16) = some e) : exitReadWork ps s =
      s.withReads [e.port] fun reads t => answerOk t (e.readWords (reads.headD false) (bits (param ps 1) 15 0)) := by
  simp [exitReadWork, exitReadFields_of_le hid hst, he, PathTable.portOf_eq he]

theorem setReadWork_absent (hid : bits (param ps 0) 31 16 ≤ 4095) (hp : s.pt.set? (bits (param ps 0) 31 16) = none) :
    setReadWork ps s = refuse s .absent := by
  simp [setReadWork, setIdOf_of_le hid, hp]

theorem setReadWork_active {p : PathSet} (hid : bits (param ps 0) 31 16 ≤ 4095)
    (hp : s.pt.set? (bits (param ps 0) 31 16) = some p) : setReadWork ps s = answerOk s p.readWords := by
  simp [setReadWork, setIdOf_of_le hid, hp]

theorem halfOf_cases {n start : Nat} (h : n = 1 ∧ start = 0 ∨ n = 2 ∧ start = 32) : halfOf n = some start := by
  rcases h with ⟨rfl, rfl⟩ | ⟨rfl, rfl⟩ <;> rfl

theorem mapReadWork_absent {start : Nat} (hid : bits (param ps 0) 31 16 ≤ 4095) (hh : halfOf (bits (param ps 0) 7 0) = some start)
    (hp : s.pt.set? (bits (param ps 0) 31 16) = none) : mapReadWork ps s = refuse s .absent := by
  simp [mapReadWork, setIdOf_of_le hid, hh, hp]

theorem mapReadWork_active {start : Nat} {p : PathSet} (hid : bits (param ps 0) 31 16 ≤ 4095)
    (hh : halfOf (bits (param ps 0) 7 0) = some start) (hp : s.pt.set? (bits (param ps 0) 31 16) = some p) :
    mapReadWork ps s = answerOk s (p.mapWords start) := by
  simp [mapReadWork, setIdOf_of_le hid, hh, hp]

theorem PathSet.memberWord_eq (p : PathSet) : p.memberWord = fun m => wordOf (m.exit * 2 ^ 16 + m.weight * 2 ^ 12 +
    (if m.up then 1 else 2) * 2 ^ 8 + p.map.count (some m.exit)) := rfl

theorem bitCode_eq (b : Bool) : bitCode b = if b then 1 else 0 := rfl

theorem bitCode_decide (p : Prop) [Decidable p] : bitCode (decide p) = if p then 1 else 0 := by
  by_cases h : p <;> simp [bitCode, h]

theorem bucketCode_eq : bucketCode = fun b => b.getD 0xFFFF := by
  funext b; cases b <;> rfl

end

/-- Settles O22. -/
theorem tableReadsAnswer : Obligations.TableReadsAnswer := by
  refine ⟨?_, ?_, ?_, ?_⟩
  · rintro s ps _ rfl
    refine ⟨fun hw hid hst he => exec_refused rfl hw (exitReadWork_absent hid hst he),
      fun hw hid hp => exec_refused rfl hw (setReadWork_absent hid hp), fun hw hid hh hp => ?_⟩
    obtain ⟨start, hstart⟩ : ∃ start, halfOf (bits (param ps 0) 7 0) = some start := by
      rcases hh with hh | hh
      · exact ⟨0, by rw [hh]; rfl⟩
      · exact ⟨32, by rw [hh]; rfl⟩
    exact exec_refused rfl hw (mapReadWork_absent hid hstart hp)
  · rintro s ps _ e _ hw rfl hid rfl hst he
    have hb := exitReadWork_active hid hst he
    refine ⟨?_, fun hr => exec_reading (c := .exitRead) rfl hw hb (by simp [hr]), fun live more hr => ?_⟩
    · rw [portsRead, exitReadFields_of_le hid hst]
      exact PathTable.portOf_eq he
    · rw [State.withReads_made (by simp [hr]), hr] at hb
      rw [exec_answered (c := .exitRead) rfl hw hb rfl, Exit.readWords]
      rw [bitCode_decide]
      simp only [enabledCode, bitCode_eq, List.headD_cons, Config.usersPerRead]
  · rintro s ps _ p hw rfl hid hp
    rw [exec_answered (c := .setRead) rfl hw (setReadWork_active hid hp) rfl, PathSet.readWords]
    simp only [PathSet.memberWord_eq, bitCode]
  · rintro s ps _ p hw rfl hid hp start hh
    rw [exec_answered (c := .mapRead) rfl hw (mapReadWork_active hid (halfOf_cases hh) hp) rfl, PathSet.mapWords, bucketCode_eq]
    rfl

end Sys2Proof.Machine
end

section
/-! PROOFS. Path sets, members and maps (chapters 2 and 3). -/

namespace Sys2Proof.Machine

-- The proofs are elaborated one after another: each thread counts against the memory in which the text is checked.
set_option Elab.async false

/-! ### Member updates (R53, R61) -/

section
variable (p : PathSet)

theorem PathSet.allEmpty_iff : p.allEmpty = true ↔ ∀ b ∈ p.map, b = none := by simp [PathSet.allEmpty]

/-- A gain event, in R61's words. -/
theorem PathSet.gain_eq : p.gain =
    { p with map := if (∀ b ∈ p.map, b = none) ∨ p.rejoin = .eager then fillMap p.members else p.map } := by
  unfold PathSet.gain
  by_cases h : (∀ b ∈ p.map, b = none) ∨ p.rejoin = .eager
  · rw [if_pos h, if_pos (by simpa [PathSet.allEmpty_iff] using h)]
    rfl
  · rw [if_neg h, if_neg (by simpa [PathSet.allEmpty_iff] using h)]

theorem PathSet.updMember_eq (x : Nat) (f : Member → Member) :
    p.updMember x f = { p with members := p.members.map fun y => if y.exit = x then f y else y } := by
  simp [PathSet.updMember]

end

/-- Settles O30. -/
theorem memberUpdateCases : Obligations.MemberUpdateCases := by
  intro p x m up hm
  refine ⟨fun h => ?_, fun hm1 hup => ?_, fun hm0 hup => ?_⟩
  · simp [PathSet.memberUpdate, hm, h]
  · subst hup
    simp only [PathSet.memberUpdate, hm, hm1, Bool.true_eq_false, Bool.false_eq_true, if_false, PathSet.updMember_eq]
    rfl
  · subst hup
    simp only [PathSet.memberUpdate, hm, hm0, Bool.false_eq_true, if_false, if_true, PathSet.updMember_eq, PathSet.gain_eq]

/-! ### The fill rule (R57, R58) -/

/-- Counting over `n` buckets that repeat a list: its whole passes, and the cut one. -/
theorem countP_range_mod {α : Type} [DecidableEq α] (l : List α) (a : α) (hl : 0 < l.length) (n : Nat) :
    (List.range n).countP (fun b => l[b % l.length]? == some a) =
      l.count a * (n / l.length) + (l.take (n % l.length)).count a := by
  induction n with
  | zero => simp
  | succ n ih =>
    have hlt := Nat.mod_lt n hl
    rw [List.range_succ, List.countP_append, ih, List.countP_singleton]
    have htake : (l.take (n % l.length + 1)).count a =
        (l.take (n % l.length)).count a + if l[n % l.length]? == some a then 1 else 0 := by
      rw [List.take_succ_eq_append_getElem hlt, List.count_append, List.count_singleton, List.getElem?_eq_getElem hlt]
      simp
    by_cases hend : n % l.length + 1 = l.length
    · have hn : n + 1 = l.length * (n / l.length + 1) := by
        have := Nat.div_add_mod n l.length
        rw [Nat.mul_succ]
        omega
      have hdiv : (n + 1) / l.length = n / l.length + 1 := Nat.div_eq_of_eq_mul_right hl hn
      have hmod : (n + 1) % l.length = 0 := Nat.mod_eq_zero_of_dvd ⟨_, hn⟩
      rw [hend, List.take_length] at htake
      rw [hdiv, hmod, List.take_zero, List.count_nil, Nat.mul_succ]
      omega
    · have hn := Nat.div_add_mod n l.length
      obtain ⟨hdiv, hmod⟩ := (Nat.div_mod_unique (a := n + 1) (c := n % l.length + 1) (d := n / l.length) hl).mpr ⟨by omega, by omega⟩
      rw [hdiv, hmod, htake, Nat.add_assoc]

section
variable {ms before after : List Member} {m : Member} (hup : ms.filter (·.up) = before ++ m :: after)
include hup

/-- The pass, cut at one of its members. -/
theorem fillPass_split : fillPass ms = (before.flatMap fun x => List.replicate x.weight x.exit) ++
    (List.replicate m.weight m.exit ++ after.flatMap fun x => List.replicate x.weight x.exit) := by
  simp [fillPass, hup]

theorem fillPass_getElem? {i : Nat} (hi : i < m.weight) :
    (fillPass ms)[(before.map (·.weight)).sum + i]? = some m.exit := by
  have hl : (before.flatMap fun x => List.replicate x.weight x.exit).length = (before.map (·.weight)).sum := by
    simp [List.length_flatMap]
  rw [fillPass_split hup, List.getElem?_append_right (by omega), hl, Nat.add_sub_cancel_left,
    List.getElem?_append_left (by simpa using hi), List.getElem?_replicate_of_lt hi]

theorem weight_le_pass : (before.map (·.weight)).sum + m.weight ≤ (fillPass ms).length := by
  rw [fillPass_length, hup]
  simp

/-- The others of the pass are other exits. -/
theorem count_take_fillPass (hn : (ms.map (·.exit)).Nodup) (r : Nat) :
    ((fillPass ms).take r).count m.exit = min m.weight (r - (before.map (·.weight)).sum) := by
  have hnu : ((before ++ m :: after).map (·.exit)).Nodup := hup ▸ hn.sublist (List.filter_sublist.map _)
  have hne : ∀ x ∈ before ++ after, x.exit ≠ m.exit := by
    intro x hx he
    rw [List.map_append, List.map_cons, List.nodup_middle, List.nodup_cons, ← List.map_append] at hnu
    exact hnu.1 (he ▸ List.mem_map_of_mem hx)
  have hother : ∀ q : List Member, (∀ x ∈ q, x.exit ≠ m.exit) → ∀ r,
      ((q.flatMap fun x => List.replicate x.weight x.exit).take r).count m.exit = 0 := by
    intro q hq r
    refine List.count_eq_zero.mpr fun hmem => ?_
    obtain ⟨x, hx, hx'⟩ := List.mem_flatMap.mp (List.mem_of_mem_take hmem)
    exact hq x hx (List.eq_of_mem_replicate hx').symm
  have hl : (before.flatMap fun x => List.replicate x.weight x.exit).length = (before.map (·.weight)).sum := by
    simp [List.length_flatMap]
  rw [fillPass_split hup, List.take_append, List.take_append, List.count_append, List.count_append,
    hother before (fun x hx => hne x (by simp [hx])), hother after (fun x hx => hne x (by simp [hx])), hl, List.take_replicate,
    List.count_replicate_self]
  omega

end

theorem fillMap_getElem? {ms : List Member} {b : Nat} (hb : b < 64) :
    (fillMap ms)[b]? = some (fillPass ms)[b % (fillPass ms).length]? := by
  simp [fillMap, Config.buckets, hb]

/-- Settles O28. -/
theorem fillRuleCounts : Obligations.FillRuleCounts := by
  intro ms
  dsimp only
  rw [← fillPass_length ms]
  refine ⟨fillMap_length ms, fun hw b hb => ?_, fun hw before m after hup pass i hi hb => ?_, fun hw hnone => ?_,
    fun hw hn before m after hup => ?_⟩
  · rcases mem_fillMap hb with ⟨e, he, -⟩ | ⟨-, h⟩
    · rw [List.length_eq_zero_iff.mp hw] at he
      cases he
    · exact h
  · have hle := weight_le_pass hup
    rw [fillMap_getElem? hb, Nat.add_assoc, Nat.mul_add_mod_self_right, Nat.mod_eq_of_lt (by omega), fillPass_getElem? hup hi]
  · rcases mem_fillMap hnone with ⟨e, -, h⟩ | ⟨h, -⟩
    · cases h
    · rw [h] at hw
      exact absurd hw (by simp)
  · have hcount : bucketCount (fillMap ms) m.exit =
        (List.range 64).countP fun b => (fillPass ms)[b % (fillPass ms).length]? == some m.exit := by
      simp [bucketCount, fillMap, Config.buckets, List.count, List.countP_map, Function.comp_def]
    have hall : (fillPass ms).count m.exit = m.weight := by
      have h := count_take_fillPass hup hn (fillPass ms).length
      have hle := weight_le_pass hup
      rw [List.take_length] at h
      omega
    rw [hcount, countP_range_mod _ _ hw, hall, count_take_fillPass hup hn]

/-! ### SET CHANGE (R45) -/

section
variable (pt : PathTable)

theorem PathTable.takeBackup_set? (b j : Nat) : (pt.takeBackup b).set? j = (pt.set? j).map fun q =>
    if j = b then { q with backupRefs := q.backupRefs + 1 } else q := pt.updSet_set? b j fun _ => rfl

theorem SetChange.references_frame (c : SetChange) (old : Option Nat) :
    (c.references old pt).exits = pt.exits ∧ (c.references old pt).waiting = pt.waiting ∧ (c.references old pt).taken = pt.taken := by
  rcases c with ⟨_, _, _ | _ | b⟩ <;> cases old <;> exact ⟨rfl, rfl, rfl⟩

theorem SetChange.references_set? (c : SetChange) (old : Option Nat) (j : Nat) : (c.references old pt).set? j = (pt.set? j).map fun q =>
    { q with backupRefs := q.backupRefs + (if c.backup = some (some j) then 1 else 0)
        - (if c.backup.isSome = true ∧ old = some j then 1 else 0) } := by
  rcases c with ⟨_, _, _ | _ | b⟩
  · simp [SetChange.references]
  · simp only [SetChange.references, PathTable.releaseBackup_set?]
    congr 1
    funext q
    by_cases h : old = some j <;> simp [h]
  · simp only [SetChange.references, PathTable.releaseBackup_set?, PathTable.takeBackup_set?, Option.map_map]
    congr 1
    funext q
    by_cases hb : b = j
    · by_cases h : old = some j <;> simp [hb, h]
    · by_cases h : old = some j <;> simp [hb, Ne.symm hb, h]

end

section
variable {ps : List Word} {s : State} {id : Nat} {c : SetChange} (hf : setChangeFields ps = some (id, c))
include hf

theorem setChangeWork_selfRef (h : c.backup = some (some id)) : setChangeWork ps s = refuse s .selfRef := by
  simp [setChangeWork, hf, h]

variable (hs : c.backup ≠ some (some id))
include hs

theorem setChangeWork_absent (hp : s.pt.set? id = none) : setChangeWork ps s = refuse s .absent := by
  simp [setChangeWork, hf, hs, hp]

variable {p : PathSet} (hp : s.pt.set? id = some p)
include hp

theorem setChangeWork_noTarget {b : Nat} (hb : c.backup = some (some b)) (hn : s.pt.set? b = none) :
    setChangeWork ps s = refuse s .noTarget := by
  have hne : b ≠ id := fun h => hs (h ▸ hb)
  simp [setChangeWork, hf, hb, hne, hp, hn]

theorem setChangeWork_ok (hb : ∀ b, c.backup = some (some b) → (s.pt.set? b).isSome = true) :
    setChangeWork ps s = answerOk (s.setPt ((c.references p.backup s.pt).updSet id c.apply)) [] := by
  have hstands : (c.backup.getD none).any (fun b => (s.pt.set? b).isNone) = false := by
    rcases h : c.backup with _ | _ | b
    · rfl
    · rfl
    · simpa using hb b h
  simp [setChangeWork, hf, hs, hp, hstands]

end

/-- Settles O24. -/
theorem setChangeWrites : Obligations.SetChangeWrites := by
  intro s ps id c hw hf
  refine ⟨fun h => exec_refused rfl hw (setChangeWork_selfRef hf h), fun hs => ⟨fun hp => exec_refused rfl hw
    (setChangeWork_absent hf hs hp), fun p hp => ⟨fun b hb hn => exec_refused rfl hw (setChangeWork_noTarget hf hs hp hb hn),
    fun hb => ?_⟩⟩⟩
  obtain ⟨hexits, hwaiting, htaken⟩ := SetChange.references_frame s.pt c p.backup
  refine ⟨(c.references p.backup s.pt).updSet id c.apply, hexits, hwaiting, htaken, fun j => ?_,
    exec_answered (c := .setChange) rfl hw (setChangeWork_ok hf hs hp hb) rfl⟩
  rw [PathTable.updSet_set? _ _ _ (f := c.apply) (fun _ => rfl), SetChange.references_set?, Option.map_map]
  congr 1

/-! ### Members that join and leave (R48, R49, R50) -/

section
variable {p : PathSet} {x : Nat}

theorem PathSet.member?_isSome : (p.member? x).isSome = true ↔ x ∈ p.members.map (·.exit) := by
  rw [Option.isSome_iff_ne_none, Ne, PathSet.member?_eq_none, not_not]

/-- A member that joins at the end, and the gain that it is when it is recorded UP. -/
theorem PathSet.addMember_eq (m : Member) : p.addMember m = { p with
    members := p.members ++ [m]
    map := if m.up = true ∧ ((∀ b ∈ p.map, b = none) ∨ p.rejoin = .eager) then fillMap (p.members ++ [m]) else p.map } := by
  unfold PathSet.addMember
  dsimp only
  by_cases hu : m.up = true
  · rw [if_pos hu, PathSet.gain_eq]
    simp [hu]
  · rw [if_neg hu, if_neg fun h => hu h.1]

/-- A member that leaves, after the loss that it is when it is recorded UP. -/
theorem PathSet.removeMember_eq (m : Member) : p.removeMember m = { p with
    members := p.members.filter fun y => y.exit != m.exit
    map := if m.up then (p.lose m.exit).map else p.map } := by
  unfold PathSet.removeMember
  cases m.up <;> rfl

theorem PathSet.reweigh_eq (k : Nat) : p.reweigh x k = { p with
    members := p.members.map fun y => if y.exit = x then { y with weight := k } else y
    map := if (∀ b ∈ p.map, b = none) ∨ p.rejoin = .eager then
        fillMap (p.members.map fun y => if y.exit = x then { y with weight := k } else y)
      else p.map } := by
  rw [PathSet.reweigh, PathSet.updMember_eq, PathSet.gain_eq]

end

theorem PathTable.join_exit? (pt : PathTable) (set x j : Nat) : (pt.join set x).exit? j = (pt.exit? j).map fun e =>
    if j = x then { e with memberRefs := e.memberRefs + 1, users := insertBy (fun y => y) set e.users } else e :=
  pt.updExit_exit? x j fun _ => rfl

/-- A change of one set, as the lookup shows it when it is that of the record found. -/
theorem PathTable.updSet_set?_eq {pt : PathTable} {id : Nat} {p : PathSet} (hp : pt.set? id = some p) {f g : PathSet → PathSet}
    (hf : ∀ q, (f q).id = q.id) (hg : g p = f p) (j : Nat) :
    (pt.updSet id f).set? j = (pt.set? j).map fun q => if j = id then g q else q := by
  rw [PathTable.updSet_set? _ _ _ hf]
  by_cases hj : j = id
  · subst hj
    simp [hp, hg]
  · simp [hj]

section
variable {ps : List Word} {s : State} (hid : bits (param ps 0) 31 16 ≤ 4095)

theorem memberEntryOf_of_le {w : Word} (hx : bits w 31 16 ≤ 8191) (hk : 1 ≤ bits w 7 0) (hk' : bits w 7 0 ≤ 15) :
    memberEntryOf w = some (bits w 31 16, bits w 7 0) := by
  simp [memberEntryOf, exitIdOf_of_le hx, weightOf, hk, hk']

theorem memberAddFields_of_le (hid : bits (param ps 0) 31 16 ≤ 4095) (hx : bits (param ps 1) 31 16 ≤ 8191)
    (hk : 1 ≤ bits (param ps 1) 7 0) (hk' : bits (param ps 1) 7 0 ≤ 15) :
    memberAddFields ps = some (bits (param ps 0) 31 16, bits (param ps 1) 31 16, bits (param ps 1) 7 0) := by
  simp [memberAddFields, setIdOf_of_le hid, memberEntryOf_of_le hx hk hk']

end

section
variable {ps : List Word} {s : State} {id x k : Nat} (hf : memberAddFields ps = some (id, x, k))
include hf

theorem memberAddWork_refused {r : ResultCode} (h : memberAddRefusal s.pt id x = some r) : memberAddWork ps s = refuse s r := by
  simp [memberAddWork, hf, h]

theorem memberAddWork_reads {e : Exit} (h : memberAddRefusal s.pt id x = none) (he : s.pt.exit? x = some e) : memberAddWork ps s =
    s.withReads [e.port] fun reads t =>
      answerOk (t.setPt ((t.pt.join id x).updSet id (·.addMember (t.pt.newMember (x, k) (reads.headD false)))))
        [pack8 (recordedCode (t.pt.newMember (x, k) (reads.headD false)).up) 0 0 0] := by
  simp [memberAddWork, hf, h, memberAddPorts, PathTable.portOf_eq he]

theorem portsRead_memberAdd {e : Exit} (h : memberAddRefusal s.pt id x = none) (he : s.pt.exit? x = some e) :
    portsRead 0x34 ps s.pt = [e.port] := by
  simp [portsRead, hf, h, memberAddPorts, PathTable.portOf_eq he]

end

section
variable {pt : PathTable} {id x : Nat} {p : PathSet} {e : Exit}

theorem memberAddRefusal_absent (hp : pt.set? id = none) : memberAddRefusal pt id x = some .absent := by
  simp [memberAddRefusal, hp]

variable (hp : pt.set? id = some p)
include hp

theorem memberAddRefusal_noTarget (he : pt.exit? x = none) : memberAddRefusal pt id x = some .noTarget := by
  simp [memberAddRefusal, hp, he]

variable (he : pt.exit? x = some e)
include he

theorem memberAddRefusal_dupMember (hm : x ∈ p.members.map (·.exit)) : memberAddRefusal pt id x = some .dupMember := by
  simp [memberAddRefusal, hp, he, PathSet.member?_isSome.mpr hm]

theorem memberAddRefusal_setFull (hm : x ∉ p.members.map (·.exit)) (hl : 16 ≤ p.members.length) :
    memberAddRefusal pt id x = some .setFull := by
  simp [memberAddRefusal, hp, he, PathSet.member?_eq_none.mpr hm, Config.maxMembers, hl]

theorem memberAddRefusal_none (hm : x ∉ p.members.map (·.exit)) (hl : p.members.length < 16) :
    memberAddRefusal pt id x = none := by
  simp [memberAddRefusal, hp, he, PathSet.member?_eq_none.mpr hm, Config.maxMembers, hl]

end

theorem PathTable.newMember_active {pt : PathTable} {x k : Nat} {e : Exit} (he : pt.exit? x = some e) (live : Bool) :
    pt.newMember (x, k) live = ⟨x, k, e.enabled && live⟩ := by
  simp [PathTable.newMember, he, Exit.derivedUp]

section
variable {ps : List Word} {s : State}

theorem memberRemoveWork_absent (hid : bits (param ps 0) 31 16 ≤ 4095) (hx : bits (param ps 1) 31 16 ≤ 8191)
    (h : ((s.pt.set? (bits (param ps 0) 31 16)).bind (·.member? (bits (param ps 1) 31 16))) = none) :
    memberRemoveWork ps s = refuse s .absent := by
  simp [memberRemoveWork, setIdOf_of_le hid, exitIdOf_of_le hx, h]

theorem memberRemoveWork_ok {p : PathSet} {m : Member} (hid : bits (param ps 0) 31 16 ≤ 4095) (hx : bits (param ps 1) 31 16 ≤ 8191)
    (hp : s.pt.set? (bits (param ps 0) 31 16) = some p) (hm : p.member? (bits (param ps 1) 31 16) = some m) :
    memberRemoveWork ps s = answerOk (s.setPt ((s.pt.leave (bits (param ps 0) 31 16) (bits (param ps 1) 31 16)).updSet
      (bits (param ps 0) 31 16) (·.removeMember m))) [] := by
  simp [memberRemoveWork, setIdOf_of_le hid, exitIdOf_of_le hx, hp, hm]

theorem memberWeightWork_absent (hid : bits (param ps 0) 31 16 ≤ 4095) (hx : bits (param ps 1) 31 16 ≤ 8191)
    (hk : 1 ≤ bits (param ps 1) 7 0) (hk' : bits (param ps 1) 7 0 ≤ 15)
    (h : ((s.pt.set? (bits (param ps 0) 31 16)).bind (·.member? (bits (param ps 1) 31 16))) = none) :
    memberWeightWork ps s = refuse s .absent := by
  simp [memberWeightWork, setIdOf_of_le hid, memberEntryOf_of_le hx hk hk', h]

theorem memberWeightWork_ok {p : PathSet} {m : Member} (hid : bits (param ps 0) 31 16 ≤ 4095) (hx : bits (param ps 1) 31 16 ≤ 8191)
    (hk : 1 ≤ bits (param ps 1) 7 0) (hk' : bits (param ps 1) 7 0 ≤ 15)
    (hp : s.pt.set? (bits (param ps 0) 31 16) = some p) (hm : p.member? (bits (param ps 1) 31 16) = some m) :
    memberWeightWork ps s = if m.weight = bits (param ps 1) 7 0 then answerOk s [] else
      answerOk (s.setPt (s.pt.updSet (bits (param ps 0) 31 16) (·.reweigh (bits (param ps 1) 31 16) (bits (param ps 1) 7 0)))) [] := by
  simp [memberWeightWork, setIdOf_of_le hid, memberEntryOf_of_le hx hk hk', hp, hm]

theorem setRefillWork_absent (hid : bits (param ps 0) 31 16 ≤ 4095) (hp : s.pt.set? (bits (param ps 0) 31 16) = none) :
    setRefillWork ps s = refuse s .absent := by
  simp [setRefillWork, setIdOf_of_le hid, hp]

theorem setRefillWork_ok {p : PathSet} (hid : bits (param ps 0) 31 16 ≤ 4095) (hp : s.pt.set? (bits (param ps 0) 31 16) = some p) :
    setRefillWork ps s = answerOk (s.setPt (s.pt.updSet (bits (param ps 0) 31 16) (·.fill)))
      [wordOf (bucketsChanged p.map (fillMap p.members))] := by
  simp [setRefillWork, setIdOf_of_le hid, hp]

end

theorem recordedCode_word (b : Bool) : pack8 (recordedCode b) 0 0 0 = if b then 0x01000000#32 else 0x02000000#32 := by
  cases b <;> rfl

/-- Settles O26. -/
theorem membersJoinAndLeave : Obligations.MembersJoinAndLeave := by
  constructor
  · rintro s ps _ _ _ hw rfl hid rfl hx rfl hk hk'
    have hf := memberAddFields_of_le hid hx hk hk'
    refine ⟨fun hp => exec_refused rfl hw (memberAddWork_refused hf (memberAddRefusal_absent hp)), fun p hp =>
      ⟨fun he => exec_refused rfl hw (memberAddWork_refused hf (memberAddRefusal_noTarget hp he)), fun e he =>
      ⟨fun hm => exec_refused rfl hw (memberAddWork_refused hf (memberAddRefusal_dupMember hp he hm)), fun hm hl =>
      exec_refused rfl hw (memberAddWork_refused hf (memberAddRefusal_setFull hp he hm hl)), fun hm hl => ?_⟩⟩⟩
    have hnone := memberAddRefusal_none hp he hm hl
    have hb := memberAddWork_reads hf hnone he
    refine ⟨portsRead_memberAdd hf hnone he, fun hr => exec_reading (c := .memberAdd) rfl hw hb (by simp [hr]), fun live more hr => ?_⟩
    rw [State.withReads_made (by simp [hr]), hr] at hb
    dsimp only [State.setPmon_pt, List.headD_cons] at hb
    rw [PathTable.newMember_active he, recordedCode_word] at hb
    refine ⟨(s.pt.join (bits (param ps 0) 31 16) (bits (param ps 1) 31 16)).updSet (bits (param ps 0) 31 16)
        (·.addMember ⟨bits (param ps 1) 31 16, bits (param ps 1) 7 0, e.enabled && live⟩), rfl, rfl, fun j => ?_, fun j => ?_,
      exec_answered (c := .memberAdd) rfl hw hb rfl⟩
    · rw [PathTable.updSet_exit?, PathTable.join_exit?]
    · exact PathTable.updSet_set?_eq hp (fun q => by rw [PathSet.addMember_eq]) (PathSet.addMember_eq _).symm j
  · rintro s ps _ _ hw rfl hid rfl hx
    refine ⟨fun hp => exec_refused rfl hw (memberRemoveWork_absent hid hx (by rw [hp]; rfl)), fun p hp => ⟨fun hm =>
      exec_refused rfl hw (memberRemoveWork_absent hid hx (by rw [hp]; exact PathSet.member?_eq_none.mpr hm)), fun m hm => ?_⟩⟩
    refine ⟨(s.pt.leave (bits (param ps 0) 31 16) (bits (param ps 1) 31 16)).updSet (bits (param ps 0) 31 16) (·.removeMember m),
      rfl, rfl, fun j => ?_, fun j => ?_, exec_answered (c := .memberRemove) rfl hw (memberRemoveWork_ok hid hx hp hm) rfl⟩
    · rw [PathTable.updSet_exit?, PathTable.leave_exit?]
    · refine PathTable.updSet_set?_eq hp (fun q => by rw [PathSet.removeMember_eq]) ?_ j
      rw [PathSet.removeMember_eq, (PathSet.member?_some hm).2]

/-- Buckets compared one by one. -/
theorem bucketsChanged_eq {old new : List (Option Nat)} (ho : old.length = 64) (hn : new.length = 64) :
    bucketsChanged old new = (List.range 64).countP fun b => old[b]? != new[b]? := by
  have hzip : old.zip new = (List.range 64).map fun b => (old[b]?.getD none, new[b]?.getD none) := by
    refine List.ext_getElem (by simp [ho, hn]) fun i h1 h2 => ?_
    have hi : i < 64 := by simpa using h2
    simp [ho, hn, hi]
  rw [bucketsChanged, hzip, List.countP_map]
  refine List.countP_congr fun b hb => ?_
  have hi : b < 64 := by simpa using hb
  simp [ho, hn, hi]

/-- Settles O27. -/
theorem weightAndRefill : Obligations.WeightAndRefill := by
  refine ⟨?_, ?_, ?_⟩
  · rintro s ps _ _ _ hw rfl hid rfl hx rfl hk hk'
    refine ⟨fun hp => exec_refused rfl hw (memberWeightWork_absent hid hx hk hk' (by rw [hp]; rfl)), fun p hp => ⟨fun hm =>
      exec_refused rfl hw (memberWeightWork_absent hid hx hk hk' (by rw [hp]; exact PathSet.member?_eq_none.mpr hm)), fun m hm => ?_⟩⟩
    have hb := memberWeightWork_ok hid hx hk hk' hp hm
    refine ⟨fun h => ?_, fun h => ?_⟩
    · rw [if_pos h] at hb
      exact exec_answered (c := .memberWeight) rfl hw hb rfl
    · rw [if_neg h] at hb
      refine ⟨s.pt.updSet (bits (param ps 0) 31 16) (·.reweigh (bits (param ps 1) 31 16) (bits (param ps 1) 7 0)), rfl, rfl, rfl,
        fun j => ?_, exec_answered (c := .memberWeight) rfl hw hb rfl⟩
      exact PathTable.updSet_set?_eq hp (fun q => by rw [PathSet.reweigh_eq]) (PathSet.reweigh_eq _).symm j
  · rintro s ps _ hw rfl hid hp
    exact exec_refused rfl hw (setRefillWork_absent hid hp)
  · rintro s ps _ p hw rfl hid hp hl
    have hb := setRefillWork_ok hid hp
    rw [bucketsChanged_eq hl (fillMap_length _)] at hb
    exact ⟨s.pt.updSet (bits (param ps 0) 31 16) (·.fill), rfl, rfl, rfl, fun j => PathTable.updSet_set?_eq hp (f := (·.fill))
      (g := fun q => { q with map := fillMap p.members }) (fun _ => rfl) rfl j,
      exec_answered (c := .setRefill) rfl hw hb rfl⟩

/-! ### SET CREATE (R44) -/

theorem distinctExits_iff {l : List (Nat × Nat)} : distinctExits l = true ↔ (l.map (·.1)).Nodup := by
  refine ⟨nodup_of_distinctExits, fun h => ?_⟩
  induction l with
  | nil => rfl
  | cons x xs ih =>
    obtain ⟨hx, hxs⟩ := List.nodup_cons.mp h
    rw [distinctExits, ih hxs, Bool.and_true, List.all_eq_true]
    refine fun y hy => bne_iff_ne.mpr fun he => hx (List.mem_map.mpr ⟨y, hy, he⟩)

/-- The takes of SET CREATE on its backup. -/
def SetCreate.taken (c : SetCreate) (pt : PathTable) : PathTable := (c.backup.map pt.takeBackup).getD pt

theorem SetCreate.apply_eq (c : SetCreate) (pt : PathTable) (reads : List Bool) : c.apply pt reads =
    { c.entries.foldl (fun t x => t.join c.id x.1) (c.taken pt) with
      sets := insertBy PathSet.id (c.record pt reads) (c.entries.foldl (fun t x => t.join c.id x.1) (c.taken pt)).sets } := by
  unfold SetCreate.apply SetCreate.taken
  cases c.backup <;> rfl

section
variable (c : SetCreate) (pt : PathTable)

theorem SetCreate.taken_frame : (c.taken pt).exits = pt.exits ∧ (c.taken pt).waiting = pt.waiting ∧ (c.taken pt).taken = pt.taken := by
  unfold SetCreate.taken
  cases c.backup <;> exact ⟨rfl, rfl, rfl⟩

theorem SetCreate.taken_set? (j : Nat) : (c.taken pt).set? j = (pt.set? j).map fun p =>
    if c.backup = some j then { p with backupRefs := p.backupRefs + 1 } else p := by
  unfold SetCreate.taken
  cases c.backup with
  | none => simp
  | some b => simp only [Option.map_some, Option.getD_some, PathTable.takeBackup_set?, Option.some.injEq, eq_comm]

end

/-- Members that join a set change nothing but exits. -/
theorem PathTable.foldl_join_frame (set : Nat) (entries : List (Nat × Nat)) (pt : PathTable) :
    (entries.foldl (fun t x => t.join set x.1) pt).waiting = pt.waiting ∧
    (entries.foldl (fun t x => t.join set x.1) pt).taken = pt.taken := by
  induction entries generalizing pt with
  | nil => exact ⟨rfl, rfl⟩
  | cons x xs ih => exact ih (pt.join set x.1)

/-- Each exit is joined once, so one take reaches it. -/
theorem PathTable.foldl_join_exit? (set : Nat) {entries : List (Nat × Nat)} (hn : (entries.map (·.1)).Nodup) (pt : PathTable)
    (j : Nat) : (entries.foldl (fun t x => t.join set x.1) pt).exit? j = (pt.exit? j).map fun e =>
      if j ∈ entries.map (·.1) then
        { e with memberRefs := e.memberRefs + 1, users := insertBy (fun y => y) set e.users } else e := by
  induction entries generalizing pt with
  | nil => simp
  | cons x xs ih =>
    obtain ⟨hx, hn⟩ := List.nodup_cons.mp hn
    rw [List.foldl_cons, ih hn, join_exit?, Option.map_map]
    congr 1
    funext e
    rw [List.map_cons]
    by_cases hj : j = x.1
    · subst hj
      simp only [Function.comp_apply, if_true, List.mem_cons, true_or, if_neg hx]
    · simp only [Function.comp_apply, List.mem_cons, hj, false_or, if_false]

section
variable (c : SetCreate) (pt : PathTable) (reads : List Bool)

theorem SetCreate.apply_frame : (c.apply pt reads).waiting = pt.waiting ∧ (c.apply pt reads).taken = pt.taken := by
  obtain ⟨-, hw, ht⟩ := c.taken_frame pt
  obtain ⟨hjw, hjt⟩ := PathTable.foldl_join_frame c.id c.entries (c.taken pt)
  rw [SetCreate.apply_eq]
  exact ⟨hjw.trans hw, hjt.trans ht⟩

theorem SetCreate.apply_exit? (hn : (c.entries.map (·.1)).Nodup) (j : Nat) : (c.apply pt reads).exit? j = (pt.exit? j).map fun e =>
    if j ∈ c.entries.map (·.1) then
      { e with memberRefs := e.memberRefs + 1, users := insertBy (fun y => y) c.id e.users } else e := by
  have h := PathTable.foldl_join_exit? c.id hn (c.taken pt) j
  rw [PathTable.exit?, PathTable.exit?, (c.taken_frame pt).1] at h
  rw [SetCreate.apply_eq]
  exact h

theorem SetCreate.apply_set? (hfree : pt.set? c.id = none) (j : Nat) : (c.apply pt reads).set? j =
    if j = c.id then some (c.record pt reads) else (pt.set? j).map fun p =>
      if c.backup = some j then { p with backupRefs := p.backupRefs + 1 } else p := by
  have hsets := PathTable.foldl_join_sets c.id c.entries (c.taken pt)
  have hnone : (c.taken pt).set? c.id = none := by rw [SetCreate.taken_set?, hfree]; rfl
  rw [SetCreate.apply_eq, PathTable.set?, hsets,
    find?_insertBy PathSet.id (c.record pt reads) (PathTable.set?_eq_none.mp hnone) j, ← PathTable.set?, SetCreate.taken_set?]
  rfl

end

section
variable {c : SetCreate} {pt : PathTable} {reads : List Bool}

theorem SetCreate.members_entries (hl : c.entries.length ≤ reads.length) :
    (c.members pt reads).map (fun m => (m.exit, m.weight)) = c.entries := by
  rw [SetCreate.members, List.map_map]
  exact List.map_fst_zip hl

theorem SetCreate.members_up {i : Nat} {m : Member} {live : Bool} {e : Exit} (hm : (c.members pt reads)[i]? = some m)
    (hr : reads[i]? = some live) (he : pt.exit? m.exit = some e) : m.up = (e.enabled && live) := by
  rw [SetCreate.members, List.getElem?_map, Option.map_eq_some_iff] at hm
  obtain ⟨⟨x, r⟩, hx, rfl⟩ := hm
  obtain ⟨-, hr'⟩ := List.getElem?_zip_eq_some.mp hx
  obtain rfl := Option.some.inj (hr'.symm.trans hr)
  exact congrArg Member.up (PathTable.newMember_active (x := x.1) (k := x.2) he r)

/-- The ports of ACTIVE exits, one each. -/
theorem PathTable.flatMap_portOf {l : List (Nat × Nat)} (h : ∀ x ∈ l, pt.exit? x.1 ≠ none) :
    (l.flatMap fun x => pt.portOf x.1).length = l.length ∧ ∀ (i : Nat) x e, l[i]? = some x → pt.exit? x.1 = some e →
      (l.flatMap fun x => pt.portOf x.1)[i]? = some e.port := by
  induction l with
  | nil => simp
  | cons y ys ih =>
    obtain ⟨e, he⟩ := Option.ne_none_iff_exists'.mp (h y List.mem_cons_self)
    obtain ⟨hl, hi⟩ := ih fun x hx => h x (List.mem_cons_of_mem _ hx)
    rw [List.flatMap_cons, PathTable.portOf_eq he, List.singleton_append]
    refine ⟨by simp [hl], fun i x d hx hd => ?_⟩
    cases i with
    | zero =>
      obtain rfl := Option.some.inj hx
      rw [he] at hd
      obtain rfl := Option.some.inj hd
      rfl
    | succ i => exact hi i x d hx hd

/-! The checks, in their order. -/

theorem SetCreate.refusal_setFull (h : 16 < c.entries.length) : c.refusal pt = some .setFull := by
  simp [SetCreate.refusal, Config.maxMembers, h]

variable (hl : ¬ 16 < c.entries.length)
include hl

theorem SetCreate.refusal_dupMember (h : ¬ (c.entries.map (·.1)).Nodup) : c.refusal pt = some .dupMember := by
  have hd : distinctExits c.entries = false := by simpa using mt distinctExits_iff.mp h
  simp [SetCreate.refusal, Config.maxMembers, hl, hd]

variable (hn : (c.entries.map (·.1)).Nodup)
include hn

theorem SetCreate.refusal_selfRef (h : c.backup = some c.id) : c.refusal pt = some .selfRef := by
  simp [SetCreate.refusal, Config.maxMembers, hl, distinctExits_iff.mpr hn, h]

variable (hs : c.backup ≠ some c.id)
include hs

theorem SetCreate.refusal_exists (h : (pt.set? c.id).isSome = true) : c.refusal pt = some .exists := by
  simp [SetCreate.refusal, Config.maxMembers, hl, distinctExits_iff.mpr hn, hs, h]

variable (hfree : pt.set? c.id = none)
include hfree

theorem SetCreate.refusal_noTarget
    (h : (∃ b, c.backup = some b ∧ pt.set? b = none) ∨ ∃ x ∈ c.entries, pt.exit? x.1 = none) : c.refusal pt = some .noTarget := by
  have hmiss : (c.backup.any (fun b => (pt.set? b).isNone) || c.entries.any fun x => (pt.exit? x.1).isNone) = true := by
    rw [Bool.or_eq_true, List.any_eq_true]
    rcases h with ⟨b, hb, hn⟩ | ⟨x, hx, hn⟩
    · exact .inl (by simp [hb, hn])
    · exact .inr ⟨x, hx, by simp [hn]⟩
  simp [SetCreate.refusal, Config.maxMembers, hl, distinctExits_iff.mpr hn, hs, hfree, -Bool.or_eq_true, hmiss]

theorem SetCreate.refusal_none
    (h : ¬ ((∃ b, c.backup = some b ∧ pt.set? b = none) ∨ ∃ x ∈ c.entries, pt.exit? x.1 = none)) : c.refusal pt = none := by
  have hmiss : (c.backup.any (fun b => (pt.set? b).isNone) || c.entries.any fun x => (pt.exit? x.1).isNone) = false := by
    rw [Bool.or_eq_false_iff, List.any_eq_false]
    refine ⟨?_, fun x hx => ?_⟩
    · cases hb : c.backup with
      | none => rfl
      | some b => simpa [Option.isSome_iff_ne_none] using fun hn => h (.inl ⟨b, hb, hn⟩)
    · simpa using fun hn => h (.inr ⟨x, hx, hn⟩)
  simp [SetCreate.refusal, Config.maxMembers, hl, distinctExits_iff.mpr hn, hs, hfree, -Bool.or_eq_true, hmiss]

end

section
variable {ps : List Word} {s : State} {c : SetCreate} (hf : setCreateFields ps = some c)
include hf

theorem setCreateWork_refused {r : ResultCode} (h : c.refusal s.pt = some r) : setCreateWork ps s = refuse s r := by
  simp [setCreateWork, hf, h]

theorem portsRead_setCreate (h : c.refusal s.pt = none) : portsRead 0x30 ps s.pt = c.entries.flatMap fun x => s.pt.portOf x.1 := by
  simp [portsRead, hf, SetCreate.ports, h]

theorem setCreateWork_reads (h : c.refusal s.pt = none) : setCreateWork ps s =
    s.withReads (portsRead 0x30 ps s.pt) fun reads t => answerOk (t.setPt (c.apply t.pt reads)) [] := by
  rw [portsRead_setCreate hf h]
  simp [setCreateWork, hf, h, SetCreate.ports]

end

/-- Settles O23. -/
theorem setCreateMakesActive : Obligations.SetCreateMakesActive := by
  intro s ps c hw hf
  refine ⟨fun h => exec_refused rfl hw (setCreateWork_refused hf (SetCreate.refusal_setFull h)), fun hl h =>
    exec_refused rfl hw (setCreateWork_refused hf (SetCreate.refusal_dupMember hl h)), fun hl hn h =>
    exec_refused rfl hw (setCreateWork_refused hf (SetCreate.refusal_selfRef hl (not_not.mp hn) h)), fun hl hn hs h =>
    exec_refused rfl hw (setCreateWork_refused hf (SetCreate.refusal_exists hl (not_not.mp hn) hs h)), fun hl hn hs hfree h =>
    exec_refused rfl hw (setCreateWork_refused hf (SetCreate.refusal_noTarget hl (not_not.mp hn) hs hfree h)),
    fun hl hn hs hfree h => ?_⟩
  have hnone := SetCreate.refusal_none hl (not_not.mp hn) hs hfree h
  have hb := setCreateWork_reads hf hnone
  obtain ⟨hlen, hport⟩ := PathTable.flatMap_portOf (pt := s.pt) (l := c.entries) fun x hx he => h (.inr ⟨x, hx, he⟩)
  rw [← portsRead_setCreate hf hnone] at hlen hport
  refine ⟨hlen, hport, fun hr => exec_reading (c := .setCreate) rfl hw hb (by rw [hlen]; exact hr), fun hr => ?_⟩
  rw [State.withReads_made (by rw [hlen]; exact hr)] at hb
  obtain ⟨hwaiting, htaken⟩ := c.apply_frame s.pt (s.readsOf (portsRead 0x30 ps s.pt)).2
  refine ⟨c.members s.pt (s.readsOf (portsRead 0x30 ps s.pt)).2, c.apply s.pt (s.readsOf (portsRead 0x30 ps s.pt)).2,
    SetCreate.members_entries hr, fun i m live e hm hlive he => SetCreate.members_up hm hlive he, ?_, fun j hj => ?_,
    fun j => c.apply_exit? s.pt _ (not_not.mp hn) j, hwaiting, htaken, exec_answered (c := .setCreate) rfl hw hb rfl⟩
  · rw [c.apply_set? s.pt _ hfree, if_pos rfl]
    rfl
  · rw [c.apply_set? s.pt _ hfree, if_neg hj]

end Sys2Proof.Machine
end

section
/-! PROOFS. The Port Monitor and the failover pass (chapter 4). -/

namespace Sys2Proof.Machine

-- The proofs are elaborated one after another: each thread counts against the memory in which the text is checked.
set_option Elab.async false

/-! ### A claim on the port table (R71, R75, R79, R82) -/

/-- The effective state in R71's words. -/
theorem effectiveOf_cases (forced : PortView) (phase : Phase) :
    (forced = .live ∧ effectiveOf forced phase = true) ∨ (forced = .dead ∧ effectiveOf forced phase = false) ∨
      (forced = .none ∧ effectiveOf forced phase = decide (phase = .live)) := by
  cases forced with
  | live => exact .inl ⟨rfl, rfl⟩
  | dead => exact .inr (.inl ⟨rfl, rfl⟩)
  | none => exact .inr (.inr ⟨rfl, by cases phase <;> rfl⟩)

theorem Port.recompute_same {x : Port} (h : effectiveOf x.forced x.phase = x.live) : x.recompute = x := by
  simp [Port.recompute, h]

theorem Port.recompute_changed {x : Port} (h : effectiveOf x.forced x.phase ≠ x.live) :
    x.recompute = { x with live := effectiveOf x.forced x.phase, pass := .running none } := by
  simp [Port.recompute, h]

theorem PortMonitor.writePort_eq (m : PortMonitor) (p : Fin 64) (y : Port) :
    m.writePort p y = if y.timer = none then (m.setPort p y).withdraw (.expiry p) else m.setPort p y := by
  rw [PortMonitor.writePort]
  exact if_congr Option.isNone_iff_eq_none rfl rfl

section
variable {pt : PathTable} {p : Fin 64}

theorem PathTable.restartPass_taken {v : Visit} (hv : pt.taken = some (.visit v)) (hp : v.port = p) :
    pt.restartPass p = { pt with taken := some (.visit { v with stale := true }) } := by
  simp [PathTable.restartPass, PathTable.visiting, hv, hp]

theorem PathTable.restartPass_waiting (h : ∀ v, pt.taken = some (.visit v) → v.port ≠ p) :
    pt.restartPass p = (pt.withdraw (.visit p)).present (.visit p) := by
  rcases pt.restartPass_cases p with ⟨v, hv, hp, -⟩ | ⟨-, he⟩
  · exact absurd hp (h v hv)
  · exact he

end

section
variable {s : State} {p : Fin 64} {f : Port → Port}

theorem State.portClaim_same (hf : (f (s.port p)).live = (s.port p).live)
    (h : effectiveOf (f (s.port p)).forced (f (s.port p)).phase = (s.port p).live) :
    s.portClaim p f = s.setPmon (s.pmon.writePort p (f (s.port p))) := by
  rw [State.portClaim, Port.recompute_same (h.trans hf.symm)]
  simp [hf]

theorem State.portClaim_changed (hf : (f (s.port p)).live = (s.port p).live)
    (h : effectiveOf (f (s.port p)).forced (f (s.port p)).phase ≠ (s.port p).live) : s.portClaim p f =
      ((s.setPmon (s.pmon.writePort p { f (s.port p) with
          live := effectiveOf (f (s.port p)).forced (f (s.port p)).phase, pass := .running none })).setPt (s.pt.restartPass p)).post
        (.port p (effectiveOf (f (s.port p)).forced (f (s.port p)).phase)) := by
  rw [State.portClaim, Port.recompute_changed (by rwa [hf])]
  simp [h]

/-- A claim depends on its change of the record as it stands only. -/
theorem State.portClaim_congr {g : Port → Port} (h : f (s.port p) = g (s.port p)) : s.portClaim p f = s.portClaim p g := by
  rw [State.portClaim, State.portClaim, h]

end

/-- Settles O31. -/
theorem effectiveChange : Obligations.EffectiveChange := by
  intro s p f hf x live written
  have hlive : live = effectiveOf (f (s.port p)).forced (f (s.port p)).phase := by
    rcases effectiveOf_cases (f (s.port p)).forced (f (s.port p)).phase with ⟨hx, he⟩ | ⟨hx, he⟩ | ⟨hx, he⟩ <;> rw [he] <;>
      simp only [live, x, hx]
  have hwritten : ∀ y, y.timer = x.timer → s.pmon.writePort p y = written y := fun y hy => by
    rw [PortMonitor.writePort_eq, hy]
  refine ⟨fun h => ?_, fun h pt' hpt => ?_⟩
  · rw [State.portClaim_same hf (hlive.symm.trans h), hwritten x rfl]
  · have hpass : s.pt.restartPass p = pt' := by
      rcases hpt with ⟨v, hv, hp, rfl⟩ | ⟨hno, rfl⟩
      · exact PathTable.restartPass_taken hv hp
      · exact PathTable.restartPass_waiting hno
    rw [State.portClaim_changed hf (hlive ▸ h), hpass, ← hlive,
      hwritten { f (s.port p) with live := live, pass := .running none } rfl]

/-! ### PORT FORCE and PORT READ (R77, R78, R85) -/

theorem PortView.code_lt (v : PortView) : v.code < 256 := by cases v <;> decide
theorem Phase.code_lt (x : Phase) : x.code < 256 := by cases x <;> decide
@[simp] theorem forcedOf_code (v : PortView) : forcedOf v.code = some v := by cases v <;> rfl

theorem State.portClaim_port (s : State) (p : Fin 64) (f : Port → Port) : (s.portClaim p f).port p = (f (s.port p)).recompute := by
  have h := congrArg (fun v : Vector Port 64 => v[p]) (s.portClaim_ports p f)
  exact h.trans (s.pmon.setPort_self p _)

theorem Port.recompute_fields (x : Port) : x.recompute.forced = x.forced ∧ x.recompute.phase = x.phase ∧
    x.recompute.live = effectiveOf x.forced x.phase := by
  rcases x.recompute_cases with ⟨h, e⟩ | ⟨-, e⟩ <;> rw [e]
  · exact ⟨rfl, rfl, h.symm⟩
  · exact ⟨rfl, rfl, rfl⟩

section
variable {ps : List Word} {s : State} {p : Fin 64}

theorem portForceWork_ok {v : PortView} (hp : bits (param ps 0) 31 24 = p.val) (hv : bits (param ps 0) 23 16 = v.code) :
    portForceWork ps s = answerOk (s.portClaim p fun x => { x with forced := v })
      [pack8 v.code (s.port p).phase.code (bitCode (effectiveOf v (s.port p).phase)) 0] := by
  obtain ⟨hforced, hphase, hlive⟩ := Port.recompute_fields { s.port p with forced := v }
  simp only [portForceWork, hp, inRange_val, hv, forcedOf_code, State.portClaim_port, hforced, hphase, hlive]

theorem portReadWork_ok (hp : bits (param ps 0) 31 24 = p.val) :
    portReadWork ps s = (s, .counting p (s.portWords p) (s.au.portCount p)) := by
  simp only [portReadWork, hp, inRange_val]

end

/-- The change count of a record, if it is the port's. -/
def Record.portChanges? (p : Fin 64) : Record → Option Nat
  | .port q _ c => if q = p then some c else none
  | _ => none

theorem AttentionUnit.portCount_eq (au : AttentionUnit) (p : Fin 64) :
    au.portCount p = (au.list.findSome? (Record.portChanges? p)).getD 0 := by
  unfold AttentionUnit.portCount
  congr 2
  funext r
  cases r with
  | port q live c => exact if_congr beq_iff_eq rfl rfl
  | job | lane | space => rfl

theorem Record.portChanges?_eq_none {p : Fin 64} {l : List Record} (h : ∀ live c, .port p live c ∉ l) :
    l.findSome? (Record.portChanges? p) = none := by
  refine List.findSome?_eq_none_iff.mpr fun r hr => ?_
  cases r with
  | port q live c => exact if_neg fun hq : q = p => h live c (by rwa [← hq])
  | job | lane | space => rfl

section
variable {au : AttentionUnit} {p : Fin 64}

theorem AttentionUnit.portCount_absent (h : ∀ live c, .port p live c ∉ au.list) : au.portCount p = 0 := by
  rw [AttentionUnit.portCount_eq, Record.portChanges?_eq_none h]
  rfl

theorem AttentionUnit.portCount_listed {before after : List Record} {live : Bool} {c : Nat}
    (hl : au.list = before ++ .port p live c :: after) (hno : ∀ l k, .port p l k ∉ before) : au.portCount p = c := by
  rw [AttentionUnit.portCount_eq, hl, List.findSome?_append, Record.portChanges?_eq_none hno]
  simp [Record.portChanges?]

end

theorem bitCode_true : bitCode true = 1 := rfl
theorem bitCode_false : bitCode false = 0 := rfl

/-! The word of a port's pass, idle and running (R197). -/

theorem passWord_idle : pack8 (bitCode (Pass.idle != .idle)) 0 0 0 = 0#32 := by decide
theorem passWord_first : pack8 (bitCode (Pass.running none != .idle)) 0 0 0 = 0x01000000#32 := by decide
theorem passWord_at (c : Nat × Nat) : pack8 (bitCode (Pass.running (some c) != .idle)) 1 0 0 = 0x01010000#32 := by
  have h : (Pass.running (some c) != .idle) = true := by simp
  rw [h]
  rfl

/-- Settles O32. -/
theorem portForceAndRead : Obligations.PortForceAndRead := by
  refine ⟨fun s ps p v hw hp hv => ?_, fun s ps p hw hp => ?_, fun au p => ⟨AttentionUnit.portCount_absent, fun before live c after =>
    AttentionUnit.portCount_listed⟩⟩
  · intro live
    have hlive : effectiveOf v (s.port p).phase = live := by
      rcases effectiveOf_cases v (s.port p).phase with ⟨rfl, he⟩ | ⟨rfl, he⟩ | ⟨rfl, he⟩ <;> exact he
    have hb := bitCode_le live
    have hvc := v.code_lt
    have hpc := (s.port p).phase.code_lt
    have hb' : bitCode live < 256 := by omega
    refine ⟨pack8 v.code (s.port p).phase.code (bitCode live) 0, bits_pack8_31_24 hvc hpc hb' (by decide),
      bits_pack8_23_16 hvc hpc hb' (by decide), ?_, ?_, ?_⟩
    · rw [pack8_eq, bits_wordOf (by omega)]
      show _ = bitCode live
      omega
    · rw [pack8_eq, bits_wordOf (by omega)]
      omega
    · rw [← hlive]
      exact exec_answered (c := .portForce) rfl hw (portForceWork_ok hp hv) (by simp)
  · rw [exec_progress (c := .portRead) rfl hw (portReadWork_ok hp) rfl]
    simp only [State.portWords, PortMonitor.timeLeft]
    rcases s.port p with ⟨reported, forced, phase, live, _ | t, _ | _ | c⟩
    all_goals simp only [bitCode_false, bitCode_true, passWord_idle, passWord_first, passWord_at, Option.isSome_none, Option.isSome_some,
      Nat.zero_mul, Nat.one_mul, Nat.add_zero]
    all_goals rw [bitCode_eq]

/-! ### Reports (R72, R73, R99) -/

section
variable {m : PortMonitor} {before after : List PortClaim} {rest : List (List PortClaim)} {r : PortReport}

theorem PortClaim.findSome?_report_eq_none {l : List PortClaim} : l.findSome? PortClaim.report? = none ↔ ∀ q, .report q ∉ l := by
  rw [List.findSome?_eq_none_iff]
  constructor
  · exact fun h q hq => nomatch h _ hq
  · intro h c hc
    cases c with
    | report q => exact absurd hc (h q)
    | expiry | command | read => rfl

theorem PortMonitor.nextReport?_eq_none (h : ∀ g rest r, m.waiting = g :: rest → .report r ∉ g) : m.nextReport? = none := by
  unfold PortMonitor.nextReport?
  cases hw : m.waiting with
  | nil => rfl
  | cons g rest => exact PortClaim.findSome?_report_eq_none.mpr fun q => h g rest q hw

variable (hw : m.waiting = (before ++ .report r :: after) :: rest) (hno : ∀ q, .report q ∉ before)
include hw hno

theorem PortMonitor.nextReport?_eq_some : m.nextReport? = some r := by
  rw [PortMonitor.nextReport?, hw, List.headD_cons, List.findSome?_append, PortClaim.findSome?_report_eq_none.mpr hno]
  rfl

theorem PortMonitor.popReport_eq :
    m.popReport r = { m with waiting := if before ++ after = [] then rest else (before ++ after) :: rest } := by
  have herase : (before ++ PortClaim.report r :: after).erase (.report r) = before ++ after := by
    rw [List.erase_append_right _ (hno r), List.erase_cons_head]
  have hpop : m.popReport r = { m with waiting := if (before ++ after).isEmpty then rest else (before ++ after) :: rest } := by
    rw [← herase]
    unfold PortMonitor.popReport
    rw [hw]
  rw [hpop]
  simp only [List.isEmpty_iff]

end

theorem Lane.reportTaken_eq (l : Lane) : l.reportTaken =
    ({ l with reportsPending := l.reportsPending - 1, owed := min (l.owed + 1) 32 } : Lane).startNext := rfl

/-- R73's table. -/
theorem Port.report_eq {x y : Port} {h now : Nat} {st : ReportedState}
    (hy : (st = .live ∧ (x.phase = .unknown ∨ x.phase = .dead) ∧ 0 < h ∧
        y = { x with reported := .live, phase := .recovering, timer := some (now + h) }) ∨
      (st = .live ∧ (x.phase = .unknown ∨ x.phase = .dead) ∧ h = 0 ∧ y = { x with reported := .live, phase := .live }) ∨
      (st = .live ∧ (x.phase = .recovering ∨ x.phase = .live) ∧ y = { x with reported := .live }) ∨
      (st = .dead ∧ x.phase ≠ .recovering ∧ y = { x with reported := .dead, phase := .dead }) ∨
      (st = .dead ∧ x.phase = .recovering ∧ y = { x with reported := .dead, phase := .dead, timer := none })) :
    x.report h now st = y := by
  rcases x with ⟨reported, forced, phase, live, timer, pass⟩
  rcases hy with ⟨rfl, hp, hh, rfl⟩ | ⟨rfl, hp, hh, rfl⟩ | ⟨rfl, hp, rfl⟩ | ⟨rfl, hp, rfl⟩ | ⟨rfl, hp, rfl⟩
  · rcases hp with hp | hp <;> cases hp <;> simp [Port.report, Port.reportLive, Nat.ne_of_gt hh]
  · rcases hp with hp | hp <;> cases hp <;> simp [Port.report, Port.reportLive, hh]
  · rcases hp with hp | hp <;> cases hp <;> rfl
  · cases phase with
    | recovering => exact absurd rfl hp
    | unknown | live | dead => rfl
  · cases hp
    rfl

theorem execReportTaken_next {s : State} {r : PortReport} (hn : s.pmon.nextReport? = some r) (hr : s.dev.phase = .running)
    (hh : s.portsHeld = false) : execReportTaken s =
      let t := (s.setPmon (s.pmon.popReport r)).portClaim r.port (Port.report s.pmon.holdDown s.pmon.now r.state)
      .next (if r.credit then t.updLane r.lane Lane.reportTaken else t) := by
  simp [execReportTaken, hn, s.running_iff.mpr hr, hh]

/-! ### Expiries (R75) -/

theorem PortMonitor.ports_all {m : PortMonitor} {P : Port → Bool} : m.ports.toList.all P = true ↔ ∀ q : Fin 64, P m.ports[q] = true := by
  rw [List.all_eq_true]
  constructor
  · exact fun h q => h _ (by simp)
  · intro h x hx
    obtain ⟨i, hi, rfl⟩ := List.getElem_of_mem hx
    exact h ⟨i, by simpa using hi⟩

theorem PortMonitor.firstToExpire_iff (m : PortMonitor) (t : Nat) :
    m.firstToExpire t = true ↔ ∀ (q : Fin 64) u, m.ports[q].timer = some u → t ≤ u ∨ u ≤ m.now := by
  rw [PortMonitor.firstToExpire, PortMonitor.ports_all]
  refine forall_congr' fun q => ?_
  cases m.ports[q].timer with
  | none => simp
  | some u => simp

theorem PortMonitor.mem_due {m : PortMonitor} {t : Nat} {p : Fin 64} :
    p ∈ m.due t ↔ (∃ u, m.ports[p].timer = some u ∧ u ≤ t) ∧ .expiry p ∉ m.waiting.flatten := by
  rw [PortMonitor.due, List.mem_filter, Bool.and_eq_true, Bool.not_eq_true', ← Bool.not_eq_true, inLine_iff]
  refine (and_iff_right (List.mem_finRange p)).trans (and_congr_left fun _ => ?_)
  cases m.ports[p].timer with
  | none => simp
  | some u => simp

theorem PortMonitor.due_sorted (m : PortMonitor) (t : Nat) : (m.due t).Pairwise (· < ·) :=
  (List.pairwise_lt_finRange 64).filter _

theorem PortMonitor.advance_eq (m : PortMonitor) (t : Nat) : m.advance t = { m with
    now := max m.now t
    waiting := if m.due t = [] then m.waiting else m.waiting ++ [(m.due t).map .expiry] } := by
  simp only [PortMonitor.advance, List.isEmpty_iff]

section
variable {s : State} {p : Fin 64} {t : Nat} (ht : (s.port p).timer = some t)
include ht

theorem execHoldDownExpiry_not_first (h : s.pmon.firstToExpire t = false) : execHoldDownExpiry p s = .next s := by
  simp [execHoldDownExpiry, ht, h]

variable (hr : s.dev.phase = .running) (h : s.pmon.firstToExpire t = true)
include hr h

theorem execHoldDownExpiry_waits (hw : (s.pmon.advance t).takeable (.expiry p) = false) :
    execHoldDownExpiry p s = .next (s.setPmon (s.pmon.advance t)) := by
  simp [execHoldDownExpiry, ht, h, hw, s.running_iff.mpr hr]

theorem execHoldDownExpiry_taken (hw : (s.pmon.advance t).takeable (.expiry p) = true) :
    execHoldDownExpiry p s = .next ((s.setPmon (s.pmon.advance t)).portClaim p Port.expire) := by
  simp [execHoldDownExpiry, ht, h, hw, s.running_iff.mpr hr]

end

/-- Settles O33. -/
theorem reportsAndExpiries : Obligations.ReportsAndExpiries := by
  refine ⟨fun s h => ?_, fun s r before after rest y hr hh hw hno hy => ?_, fun s p ht => ?_, fun s p t hr ht => ⟨?_, fun hfirst =>
    ⟨fun hno => ?_, fun g rest hg hmem hp => ?_⟩⟩, fun m t => ⟨m.due t, fun p => PortMonitor.mem_due, m.due_sorted t, m.advance_eq t⟩⟩
  · rw [exec, execReportTaken, PortMonitor.nextReport?_eq_none h]
  · rw [exec, execReportTaken_next (PortMonitor.nextReport?_eq_some hw hno) hr hh, PortMonitor.popReport_eq hw hno]
    have hclaim : ∀ m' : PortMonitor, m'.ports = s.pmon.ports →
        (s.setPmon m').portClaim r.port (Port.report s.pmon.holdDown s.pmon.now r.state) = (s.setPmon m').portClaim r.port fun _ => y :=
      fun m' hm => State.portClaim_congr (by
        rw [State.port, State.setPmon_pmon, hm]
        exact Port.report_eq hy)
    dsimp only
    rw [hclaim { s.pmon with waiting := if before ++ after = [] then rest else (before ++ after) :: rest } rfl]
    rfl
  · rw [exec, execHoldDownExpiry, ht]
  · rintro ⟨q, u, hq, hlo, hhi⟩
    refine execHoldDownExpiry_not_first ht (Bool.eq_false_iff.mpr fun hf => ?_)
    have := (s.pmon.firstToExpire_iff t).mp hf q u hq
    omega
  · refine execHoldDownExpiry_waits ht hr ((s.pmon.firstToExpire_iff t).mpr hfirst) (Bool.eq_false_iff.mpr fun hf => ?_)
    obtain ⟨g, rest, hg, hmem⟩ := firstInLine_iff.mp hf
    exact hno g rest hg hmem
  · rw [exec, execHoldDownExpiry_taken ht hr ((s.pmon.firstToExpire_iff t).mpr hfirst) (firstInLine_iff.mpr ⟨g, rest, hg, hmem⟩)]
    refine congrArg Host.Outcome.next (State.portClaim_congr ?_)
    have hport : (s.setPmon (s.pmon.advance t)).port p = s.port p := rfl
    rw [hport]
    simp [Port.expire, hp]

/-! ### The failover pass (R81) -/

section
variable {pt : PathTable} {p : Fin 64} (hs : pt.exits.Pairwise (fun a b => a.id < b.id))
  (hu : ∀ e ∈ pt.exits, e.users.Pairwise (· < ·))

/-- In a list in ascending rank, the first that is found ranks before every other that could be. -/
theorem find?_least {α : Type} {rank : α → Nat} {l : List α} (hl : l.Pairwise fun a b => rank a < rank b) {P : α → Bool} {a : α}
    (h : l.find? P = some a) : ∀ b ∈ l, P b = true → b = a ∨ rank a < rank b := by
  induction l with
  | nil => cases h
  | cons x xs ih =>
    obtain ⟨hx, hxs⟩ := List.pairwise_cons.mp hl
    intro b hb hp
    rw [List.find?_cons] at h
    split at h
    · obtain rfl := Option.some.inj h
      rcases List.mem_cons.mp hb with rfl | hb
      · exact .inl rfl
      · exact .inr (hx b hb)
    · rename_i hx'
      rcases List.mem_cons.mp hb with rfl | hb
      · rw [hp] at hx'
        cases hx'
      · exact ih hxs h b hb hp

/-- A place of the pass that is past a bound on its exit's ID. -/
def PathTable.isPlaceAbove (pt : PathTable) (p : Fin 64) (above : Nat → Bool) (c : Nat × Nat) : Prop :=
  pt.isPlace p c ∧ above c.1 = true

theorem PathTable.passExit_none {above : Nat → Bool} (h : pt.passExit p above = none) (c : Nat × Nat) :
    ¬ pt.isPlaceAbove p above c := by
  rintro ⟨⟨e, he, hid, hport, hmem⟩, ha⟩
  unfold PathTable.passExit at h
  split at h
  · rename_i hf
    have := List.find?_eq_none.mp hf e he
    have hne : e.users ≠ [] := List.ne_nil_of_mem hmem
    simp [hid, ha, hport, hne] at this
  · rename_i e' hf
    have := List.find?_some hf
    rw [Option.map_eq_none_iff, List.head?_eq_none_iff] at h
    simp [h] at this

include hs hu in
theorem PathTable.passExit_some {above : Nat → Bool} {c : Nat × Nat} (h : pt.passExit p above = some c) :
    pt.isPlaceAbove p above c ∧ ∀ d, pt.isPlaceAbove p above d → d = c ∨ placeBefore c d := by
  unfold PathTable.passExit at h
  split at h
  · cases h
  · rename_i e hf
    obtain ⟨sid, hsid, rfl⟩ := Option.map_eq_some_iff.mp h
    have hmem := List.mem_of_find?_eq_some hf
    have hcond := List.find?_some hf
    simp only [Bool.and_eq_true, beq_iff_eq] at hcond
    obtain ⟨⟨ha, hport⟩, -⟩ := hcond
    obtain ⟨rest, hrest⟩ : ∃ rest, e.users = sid :: rest := List.head?_eq_some_iff.mp hsid
    refine ⟨⟨⟨e, hmem, rfl, hport, by rw [hrest]; exact List.mem_cons_self⟩, ha⟩, ?_⟩
    rintro ⟨d1, d2⟩ ⟨⟨x, hx, hxid, hxport, hxmem⟩, hxa⟩
    dsimp only at hxid hxmem hxa
    subst hxid
    have hne : x.users ≠ [] := List.ne_nil_of_mem hxmem
    rcases find?_least hs hf x hx (by simp [hxa, hxport, hne]) with rfl | hlt
    · rw [hrest] at hxmem
      rcases List.mem_cons.mp hxmem with rfl | hd
      · exact .inl rfl
      · have hsorted := hu x hmem
        rw [hrest] at hsorted
        exact .inr (.inr ⟨rfl, (List.pairwise_cons.mp hsorted).1 d2 hd⟩)
    · exact .inr (.inl hlt)

/-- The places past a cursor: those of later exits, and the later ones of its own. -/
theorem placeBefore_iff {e sid : Nat} {c : Nat × Nat} : placeBefore (e, sid) c ↔ e < c.1 ∨ (c.1 = e ∧ sid < c.2) :=
  or_congr Iff.rfl (and_congr_left fun _ => eq_comm)

include hs in
theorem PathTable.exit?_unique {e : Exit} (he : e ∈ pt.exits) : pt.exit? e.id = some e := by
  cases h : pt.exit? e.id with
  | none => exact absurd rfl (PathTable.exit?_eq_none.mp h e he)
  | some d =>
    rcases find?_least hs h e he (by simp) with rfl | hlt
    · rfl
    · have := (PathTable.exit?_some h).2
      omega

/-- The next user of the exit of the cursor, when the exit is a place of the pass. -/
def PathTable.userAfter (pt : PathTable) (p : Fin 64) (c : Nat × Nat) : Option Nat :=
  (pt.exit? c.1).bind fun x => if x.port == p then x.users.find? (c.2 < ·) else none

theorem PathTable.nextPlace_first : pt.nextPlace p none = pt.passExit p fun _ => true := rfl

theorem PathTable.nextPlace_own {c : Nat × Nat} {sid : Nat} (h : pt.userAfter p c = some sid) :
    pt.nextPlace p (some c) = some (c.1, sid) := by
  rw [PathTable.nextPlace]
  unfold PathTable.userAfter at h
  rw [h]

theorem PathTable.nextPlace_later {c : Nat × Nat} (h : pt.userAfter p c = none) :
    pt.nextPlace p (some c) = pt.passExit p (c.1 < ·) := by
  rw [PathTable.nextPlace]
  unfold PathTable.userAfter at h
  rw [h]

include hs in
theorem PathTable.userAfter_none {c : Nat × Nat} (h : pt.userAfter p c = none) {sid : Nat} (hp : pt.isPlace p (c.1, sid)) :
    ¬ c.2 < sid := by
  obtain ⟨x, hx, hid, hport, hmem⟩ := hp
  dsimp only at hid hmem
  rw [PathTable.userAfter, ← hid, PathTable.exit?_unique hs hx, Option.bind_some, hport, beq_self_eq_true, if_pos rfl,
    List.find?_eq_none] at h
  simpa using h sid hmem

include hs hu in
theorem PathTable.userAfter_some {c : Nat × Nat} {sid : Nat} (h : pt.userAfter p c = some sid) :
    pt.isPlace p (c.1, sid) ∧ c.2 < sid ∧ ∀ other, pt.isPlace p (c.1, other) → c.2 < other → other = sid ∨ sid < other := by
  obtain ⟨x, hx, hf⟩ := Option.bind_eq_some_iff.mp h
  obtain ⟨hmem, hid⟩ := PathTable.exit?_some hx
  split at hf
  · rename_i hport
    refine ⟨⟨x, hmem, hid, beq_iff_eq.mp hport, List.mem_of_find?_eq_some hf⟩, by simpa using List.find?_some hf, ?_⟩
    rintro other ⟨y, hy, hyid, -, hymem⟩ hlt
    have hyx := PathTable.exit?_unique hs hy
    dsimp only at hyid hymem
    rw [hyid, hx] at hyx
    obtain rfl := Option.some.inj hyx
    exact find?_least (rank := id) (hu _ hmem) hf other hymem (by simpa using hlt)
  · cases hf

/-- A place past the cursor. -/
def PathTable.isAhead (pt : PathTable) (p : Fin 64) (cursor : Option (Nat × Nat)) (c : Nat × Nat) : Prop :=
  pt.isPlace p c ∧ ∀ k, cursor = some k → placeBefore k c

theorem PathTable.isAhead_none {c : Nat × Nat} : pt.isAhead p none c ↔ pt.isPlaceAbove p (fun _ => true) c :=
  and_congr_right fun _ => iff_of_true nofun rfl

theorem PathTable.isAhead_some {k c : Nat × Nat} :
    pt.isAhead p (some k) c ↔ pt.isPlace p c ∧ (k.1 < c.1 ∨ (c.1 = k.1 ∧ k.2 < c.2)) :=
  and_congr_right fun _ => ⟨fun h => placeBefore_iff.mp (h k rfl), fun h _ hj => Option.some.inj hj ▸ placeBefore_iff.mpr h⟩

include hs in
/-- With no user left on the cursor's exit, the places ahead are those of later exits. -/
theorem PathTable.isAhead_later {k c : Nat × Nat} (h : pt.userAfter p k = none) :
    pt.isAhead p (some k) c ↔ pt.isPlaceAbove p (k.1 < ·) c := by
  rw [PathTable.isAhead_some, PathTable.isPlaceAbove, decide_eq_true_iff]
  refine and_congr_right fun hp => or_iff_left fun ⟨he, hlt⟩ => ?_
  exact PathTable.userAfter_none hs h (sid := c.2) (he ▸ hp) hlt

include hs in
theorem PathTable.nextPlace_none {cursor : Option (Nat × Nat)} (h : pt.nextPlace p cursor = none) (c : Nat × Nat) :
    ¬ pt.isAhead p cursor c := by
  cases cursor with
  | none =>
    rw [PathTable.nextPlace_first] at h
    exact mt PathTable.isAhead_none.mp (PathTable.passExit_none h c)
  | some k =>
    cases ho : pt.userAfter p k with
    | some sid => rw [PathTable.nextPlace_own ho] at h; cases h
    | none =>
      rw [PathTable.nextPlace_later ho] at h
      exact mt (PathTable.isAhead_later hs ho).mp (PathTable.passExit_none h c)

include hs hu in
theorem PathTable.nextPlace_some {cursor : Option (Nat × Nat)} {c : Nat × Nat} (h : pt.nextPlace p cursor = some c) :
    pt.isAhead p cursor c ∧ ∀ d, pt.isAhead p cursor d → d = c ∨ placeBefore c d := by
  cases cursor with
  | none =>
    simp only [PathTable.isAhead_none]
    exact PathTable.passExit_some hs hu h
  | some k =>
    cases ho : pt.userAfter p k with
    | none =>
      rw [PathTable.nextPlace_later ho] at h
      simp only [PathTable.isAhead_later hs ho]
      exact PathTable.passExit_some hs hu h
    | some sid =>
      rw [PathTable.nextPlace_own ho] at h
      obtain rfl := Option.some.inj h
      obtain ⟨hplace, hlt, hleast⟩ := PathTable.userAfter_some hs hu ho
      refine ⟨PathTable.isAhead_some.mpr ⟨hplace, .inr ⟨rfl, hlt⟩⟩, fun d hd => ?_⟩
      obtain ⟨d1, d2⟩ := d
      obtain ⟨hdp, hd⟩ := PathTable.isAhead_some.mp hd
      rcases hd with hd | ⟨rfl, hd⟩
      · exact .inr (.inl hd)
      · rcases hleast d2 hdp hd with rfl | hd2
        · exact .inl rfl
        · exact .inr (.inr ⟨rfl, hd2⟩)

end

/-! ### VISIT_CLAIM (R36, R82) -/

section
variable {s : State} {p : Fin 64}

theorem PathTable.visiting_eq_some {pt : PathTable} {v : Visit} (h : pt.taken = some (.visit v)) : pt.visiting = some v := by
  rw [PathTable.visiting, h]

theorem PathTable.visiting_eq_none {pt : PathTable} (h : ∀ v, pt.taken ≠ some (.visit v)) : pt.visiting = none := by
  unfold PathTable.visiting
  split
  · exact absurd ‹_› (h _)
  · rfl

theorem State.serving_eq_true (hr : s.dev.phase = .running) (hh : s.tablesHeld = false) : s.serving = true := by
  simp [State.serving, s.running_iff.mpr hr, hh]

theorem execVisitClaim_other {v : Visit} (hv : s.pt.taken = some (.visit v)) (hp : v.port ≠ p) : execVisitClaim p s = .next s := by
  simp [execVisitClaim, PathTable.visiting_eq_some hv, hp]

theorem execVisitClaim_none (hv : ∀ v, s.pt.taken ≠ some (.visit v)) (h : (s.port p).pass = .idle ∨ s.ptTakes (.visit p) = false) :
    execVisitClaim p s = .next s := by
  unfold execVisitClaim
  rw [PathTable.visiting_eq_none hv]
  dsimp only
  split
  · rfl
  · rename_i hc
    rw [h.resolve_left (by simp [hc]), Bool.and_false, if_neg (by simp)]

theorem execVisitClaim_visits {cursor : Option (Nat × Nat)} {stale : Bool} (hs : s.serving = true)
    (h : s.pt.taken = some (.visit ⟨p, cursor, stale⟩) ∨
      (s.pt.taken = none ∧ (s.port p).pass = .running cursor ∧ s.ptTakes (.visit p) = true ∧ stale = false)) :
    execVisitClaim p s = .next (s.visitPass ⟨p, cursor, stale⟩) := by
  rcases h with hv | ⟨hn, hpass, htakes, rfl⟩
  · simp [execVisitClaim, PathTable.visiting_eq_some hv, hs]
  · have hv : s.pt.visiting = none := PathTable.visiting_eq_none (by simp [hn])
    simp [execVisitClaim, hv, hpass, hs, htakes]

end

theorem PathTable.visit_active {pt : PathTable} {e sid : Nat} {x : Exit} (hx : pt.exit? e = some x) (live : Bool) :
    pt.visit live (e, sid) = pt.updSet sid fun q => q.memberUpdate e (x.enabled && live) := by
  rw [PathTable.visit, hx]
  rfl

/-- Settles O34. -/
theorem failoverPassVisits : Obligations.FailoverPassVisits := by
  refine ⟨fun s p v hv hp => execVisitClaim_other hv hp, fun s p hv h => execVisitClaim_none hv h,
    fun s p cursor stale hr hh h => ⟨fun hn => ?_, fun e sid x hn hx => ⟨fun ha => ?_, fun ha => ?_⟩⟩,
    fun pt p cursor hs hu => ⟨fun h c => PathTable.nextPlace_none hs h c, fun c h => PathTable.nextPlace_some hs hu h⟩⟩
  · rw [exec, execVisitClaim_visits (State.serving_eq_true hr hh) h]
    rcases s.visitPass_cases ⟨p, cursor, stale⟩ with ⟨-, he⟩ | ⟨place, hp, -⟩
    · rw [he]
      rfl
    · cases hn.symm.trans hp
  · rw [exec, execVisitClaim_visits (State.serving_eq_true hr hh) h]
    rcases s.visitPass_cases ⟨p, cursor, stale⟩ with ⟨hp, -⟩ | ⟨place, hp, ⟨ha', -⟩ | ⟨-, he⟩⟩
    · cases hn.symm.trans hp
    · cases ha.symm.trans ha'
    · rw [he]
  · rw [exec, execVisitClaim_visits (State.serving_eq_true hr hh) h]
    rcases s.visitPass_cases ⟨p, cursor, stale⟩ with ⟨hp, -⟩ | ⟨place, hp, ⟨-, he⟩ | ⟨ha', -⟩⟩
    · cases hn.symm.trans hp
    · obtain rfl := Option.some.inj (hp.symm.trans hn)
      rw [he, PathTable.visit_active hx]
      rfl
    · cases ha.symm.trans ha'

end Sys2Proof.Machine
end

section
/-! PROOFS. The lanes: their commands, the link's events, the lookups queued and the ends of sends (chapter 5). -/

namespace Sys2Proof.Machine

-- The proofs are elaborated one after another: each thread counts against the memory in which the text is checked.
set_option Elab.async false

/-! ### The lane commands (R108 to R110) -/

theorem State.updLane_congr {s : State} {n : Fin 4} {f g : Lane → Lane} (h : f (s.lane n) = g (s.lane n)) :
    s.updLane n f = s.updLane n g := by rw [State.updLane, State.updLane, h]

section
variable {s : State} {ps : List Word} {n : Fin 4}

theorem laneEnableWork_disabled (hn : bits (param ps 0) 31 24 = n.val) (hl : (s.lane n).link = .disabled) :
    laneEnableWork ps s = answerOk (s.updLane n fun l => { l with link :=
      if l.signal = true ∧ s.dev.refclk = true then .aligning else .down }) [0x01000000#32] := by
  have hupd : (s.updLane n fun l => { l with link := .down }).detect n = s.updLane n fun l => { l with link :=
      if l.signal = true ∧ s.dev.refclk = true then .aligning else .down } := by
    rw [State.detect, State.updLane_updLane]
    refine State.updLane_congr ?_
    cases hs : (s.lane n).signal <;> cases hr : s.dev.refclk <;> simp [hr]
  simp only [laneEnableWork, hn, inRange_val, hl, beq_self_eq_true, if_true, hupd]
  rfl

theorem laneEnableWork_enabled (hn : bits (param ps 0) 31 24 = n.val) (hl : (s.lane n).link ≠ .disabled) :
    laneEnableWork ps s = answerOk s [pack8 (s.lane n).link.code 0 0 0] := by
  simp only [laneEnableWork, hn, inRange_val, beq_iff_eq, hl, if_false]

theorem laneDisableWork_up (hn : bits (param ps 0) 31 24 = n.val) (hl : (s.lane n).link = .up) :
    laneDisableWork ps s = answerOk (s.leaveUp n .disabled) [] := by
  simp only [laneDisableWork, hn, inRange_val, hl]

theorem laneDisableWork_not_up (hn : bits (param ps 0) 31 24 = n.val) (hl : (s.lane n).link ≠ .up) :
    laneDisableWork ps s = answerOk (s.updLane n fun l => { l with link := .disabled }) [] := by
  simp only [laneDisableWork, hn, inRange_val]
  cases h : (s.lane n).link with
  | up => exact absurd h hl
  | down | aligning => rfl
  | disabled =>
    have hsame : (s.updLane n fun l => { l with link := .disabled }) = s :=
      (State.updLane_congr (by rw [← h])).trans (s.updLane_id n)
    rw [hsame]

theorem laneReadWork_eq (hn : bits (param ps 0) 31 24 = n.val) : laneReadWork ps s =
    answerOk (if bits (param ps 0) 16 16 = 1 then s.updLane n Lane.clearCounters else s) (s.laneWords n) := by
  simp only [laneReadWork, hn, inRange_val]

theorem laneWeightWork_ok (hn : bits (param ps 0) 31 24 = n.val) (h1 : 1 ≤ bits (param ps 0) 23 16)
    (h8 : bits (param ps 0) 23 16 ≤ 8) :
    laneWeightWork ps s = answerOk (s.updLane n fun l => { l with weight := bits (param ps 0) 23 16 }) [] := by
  simp only [laneWeightWork, hn, inRange_val, h1, h8, and_self, if_true]

theorem laneWords_eq : s.laneWords n =
    [pack8 (s.lane n).link.code (s.lane n).weight (if s.su.current = n then 1 else 0)
        (if s.su.current = n then s.su.allowance else 0),
      pack8 (s.lane n).queue.length ((s.lane n).queue.countP fun e => decide (e.status = .waiting)) (s.lane n).held
        (s.lane n).owed,
      pack8 (s.lane n).reportsPending (s.au.laneRecord n).1.code 0 (s.au.laneRecord n).2,
      wordOf (s.lane n).requestsTaken, wordOf (s.lane n).resultsSent,
      pack16 (s.lane n).overruns (s.lane n).checkErrors, pack16 (s.lane n).malformed 0] := by
  have hwaiting : (fun e : Entry => e.status == .waiting) = fun e => decide (e.status = .waiting) :=
    funext fun e => Bool.beq_eq_decide_eq ..
  rw [State.laneWords, hwaiting]
  by_cases hc : s.su.current = n <;> simp [hc, bitCode]

end

/-- The causes and the change count of a record, if it is the lane's. -/
def Record.laneChanges? (n : Fin 4) : Record → Option (CauseSet × Nat)
  | .lane m cs c => if m = n then some (cs, c) else none
  | _ => none

theorem AttentionUnit.laneRecord_eq (au : AttentionUnit) (n : Fin 4) :
    au.laneRecord n = (au.list.findSome? (Record.laneChanges? n)).getD (CauseSet.empty, 0) := by
  unfold AttentionUnit.laneRecord
  congr 2
  funext r
  cases r with
  | lane m cs c => exact if_congr beq_iff_eq rfl rfl
  | job | port | space => rfl

theorem Record.laneChanges?_eq_none {n : Fin 4} {l : List Record} (h : ∀ cs c, .lane n cs c ∉ l) :
    l.findSome? (Record.laneChanges? n) = none := by
  refine List.findSome?_eq_none_iff.mpr fun r hr => ?_
  cases r with
  | lane m cs c => exact if_neg fun hm : m = n => h cs c (by rwa [← hm])
  | job | port | space => rfl

section
variable {au : AttentionUnit} {n : Fin 4}

theorem AttentionUnit.laneRecord_absent (h : ∀ cs c, .lane n cs c ∉ au.list) :
    au.laneRecord n = (⟨false, false, false⟩, 0) := by
  rw [AttentionUnit.laneRecord_eq, Record.laneChanges?_eq_none h]
  rfl

theorem AttentionUnit.laneRecord_listed {before after : List Record} {cs : CauseSet} {c : Nat}
    (hl : au.list = before ++ .lane n cs c :: after) (hno : ∀ x k, .lane n x k ∉ before) : au.laneRecord n = (cs, c) := by
  rw [AttentionUnit.laneRecord_eq, hl, List.findSome?_append, Record.laneChanges?_eq_none hno]
  simp [Record.laneChanges?]

end

/-- Settles O35. -/
theorem laneCommandsAct : Obligations.LaneCommandsAct := by
  refine ⟨fun s ps n hn => ⟨fun hw => ⟨fun hl => ?_, fun hl => ?_⟩, fun hw => ⟨fun hl => ?_, fun hl => ?_⟩,
    fun hw h1 h8 => ?_, fun hw hbad => ?_⟩, fun s ps n hw hn => ?_,
    fun au n => ⟨AttentionUnit.laneRecord_absent, fun _ _ _ _ => AttentionUnit.laneRecord_listed⟩⟩
  · exact exec_answered (c := .laneEnable) rfl hw (laneEnableWork_disabled hn hl) rfl
  · refine ⟨pack8 (s.lane n).link.code 0 0 0, ?_, ?_, exec_answered (c := .laneEnable) rfl hw (laneEnableWork_enabled hn hl) rfl⟩
    · cases (s.lane n).link <;> rfl
    · cases (s.lane n).link <;> rfl
  · exact exec_answered (c := .laneDisable) rfl hw (laneDisableWork_not_up hn hl) rfl
  · exact exec_answered (c := .laneDisable) rfl hw (laneDisableWork_up hn hl) rfl
  · exact exec_answered (c := .laneWeight) rfl hw (laneWeightWork_ok hn h1 h8) rfl
  · refine exec_refused (c := .laneWeight) rfl hw (laneWeightWork_badArg s (hbad.elim (fun h => .inr (.inl h)) fun h => .inr (.inr h)))
  · intro l ws
    have hws : s.laneWords n = ws := laneWords_eq
    refine ⟨fun hclear => ?_, fun hclear => ?_⟩
    · exact exec_answered (c := .laneRead) rfl hw (by rw [hostWork, laneReadWork_eq hn, hclear, hws]; rfl) rfl
    · exact exec_answered (c := .laneRead) rfl hw (by rw [hostWork, laneReadWork_eq hn, hclear, hws]; rfl) rfl

/-! ### The link's events (R91 to R93, R200) -/

section
variable {s : State} {n : Fin 4}

/-- The posting and the signal on the line do not touch each other. -/
theorem State.post_detect (s : State) (p : Posting) (n : Fin 4) : (s.post p).detect n = (s.detect n).post p := by
  rcases s.post_cases p with ⟨hr, he⟩ | ⟨hr, he⟩
  · rw [he, State.post, show (s.detect n).restarting = true from hr, if_pos rfl]
  · rw [he, State.post, show (s.detect n).restarting = false from hr]
    rfl

theorem State.setPmon_detect (s : State) (m : PortMonitor) (n : Fin 4) :
    (s.setPmon m).detect n = (s.detect n).setPmon m := rfl

theorem execSignalDetected_down (hrun : s.dev.phase = .running) (hl : (s.lane n).link = .down) (hr : s.dev.refclk = true) :
    execSignalDetected n s = .next (s.updLane n fun l => { l with signal := true, link := .aligning }) := by
  rw [execSignalDetected, if_pos (s.running_iff.mpr hrun), State.detect, State.updLane_updLane]
  exact congrArg _ (State.updLane_congr (if_pos (by simp [hl, hr])))

theorem execSignalDetected_other (hrun : s.dev.phase = .running) (h : (s.lane n).link ≠ .down ∨ s.dev.refclk = false) :
    execSignalDetected n s = .next (s.updLane n fun l => { l with signal := true }) := by
  rw [execSignalDetected, if_pos (s.running_iff.mpr hrun), State.detect, State.updLane_updLane]
  refine congrArg _ (State.updLane_congr (if_neg ?_))
  rcases h with h | h <;> simp [h]

theorem execAlignmentComplete_aligning (hrun : s.dev.phase = .running) (hl : (s.lane n).link = .aligning)
    (hs : (s.lane n).sending = none) : execAlignmentComplete n s =
      .next (s.updLane n fun l => { l with link := .up, held := 0, owed := 0, sending := some (.credit 32) }) := by
  rw [execAlignmentComplete, if_pos (by simp [s.running_iff.mpr hrun, hl])]
  exact congrArg _ (State.updLane_congr (by simp [Lane.startNext, hs, Config.creditLimit]))

theorem execAlignmentComplete_other (hl : (s.lane n).link ≠ .aligning) : execAlignmentComplete n s = .next s :=
  congrArg _ (if_neg (by simp [hl]))

theorem State.updLane_keep_signal (s : State) (n : Fin 4) :
    (s.updLane n fun l => { l with signal := l.signal && true }) = s :=
  (State.updLane_congr (by simp)).trans (s.updLane_id n)

theorem execSignalLost_aligning (hrun : s.dev.phase = .running) (hl : (s.lane n).link = .aligning) :
    execSignalLost n .signal s = .next (s.updLane n fun l => { l with signal := false, link := .down }) := by
  simp only [execSignalLost, s.running_iff.mpr hrun, hl, Bool.not_true, Bool.false_eq_true, if_false, if_true,
    State.updLane_updLane]
  exact congrArg _ (State.updLane_congr (by simp))

theorem execSignalLost_idle (hrun : s.dev.phase = .running) (hl : (s.lane n).link = .disabled ∨ (s.lane n).link = .down) :
    execSignalLost n .signal s = .next (s.updLane n fun l => { l with signal := false }) := by
  have hupd : (s.updLane n fun l => { l with signal := l.signal && (LossCause.signal == .alignment) }) =
      s.updLane n fun l => { l with signal := false } := State.updLane_congr (by simp)
  rcases hl with hl | hl <;>
    simp only [execSignalLost, s.running_iff.mpr hrun, hl, Bool.not_true, Bool.false_eq_true, if_false, hupd]

/-- The loss of alignment alone is an event in UP only (R91). -/
theorem execSignalLost_alignment_not_up (hrun : s.dev.phase = .running) (hl : (s.lane n).link ≠ .up) :
    execSignalLost n .alignment s = .next s := by
  have hsame := s.updLane_keep_signal n
  cases h : (s.lane n).link with
  | up => exact absurd h hl
  | disabled | down | aligning =>
    simp only [execSignalLost, s.running_iff.mpr hrun, h, Bool.not_true, Bool.false_eq_true, if_false,
      beq_self_eq_true, reduceCtorEq, hsame]

/-- A lane that leaves UP by the loss of its signal stays in DOWN; one that finds its signal and a clock moves on. -/
theorem execSignalLost_up (hrun : s.dev.phase = .running) (hl : (s.lane n).link = .up) (cause : LossCause) :
    execSignalLost n cause s = .next (((s.updLane n fun l =>
      { l with signal := l.signal && cause == .alignment,
               link := if ((s.lane n).signal && cause == .alignment) = true ∧ s.dev.refclk = true then .aligning else .down,
               queue := [], held := 0, owed := 0, reportsPending := 0, sending := none }).setPmon
        (s.pmon.orphan n)).post (.lane n .linkLost)) := by
  simp only [execSignalLost, s.running_iff.mpr hrun, hl, Bool.not_true, Bool.false_eq_true, if_false]
  rw [State.post_detect, State.leaveUp, State.updLane_updLane]
  rw [State.setPmon_detect, State.updLane_pmon, State.detect, State.updLane_updLane]
  refine congrArg (fun t => Host.Outcome.next (State.post (State.setPmon t _) _)) (State.updLane_congr ?_)
  cases ((s.lane n).signal && cause == .alignment) <;> cases hr : s.dev.refclk <;> simp [Lane.leaveUp, hr]

end

/-- Settles O36. -/
theorem linkEvents : Obligations.LinkEvents := by
  intro s n hrun
  refine ⟨execSignalDetected_down hrun, execSignalDetected_other hrun, execAlignmentComplete_aligning hrun,
    execAlignmentComplete_other, execSignalLost_aligning hrun, execSignalLost_idle hrun,
    execSignalLost_alignment_not_up hrun, fun hl => ?_, fun hl => ?_⟩
  · rw [exec, execSignalLost_up hrun hl, show (LossCause.signal == .alignment) = false from rfl]
    simp only [Bool.and_false, Bool.false_eq_true, false_and, if_false]
  · rw [exec, execSignalLost_up hrun hl, beq_self_eq_true]
    simp only [Bool.and_true]

/-! ### Lookups and the ends of sends (R97, R98, R100) -/

section
variable {s : State} {n : Fin 4}

theorem State.takeLookup_room (h : (s.lane n).queue.length < 32) (tag : Byte) (ask : Option Ask) :
    s.takeLookup n tag ask = s.updLane n fun l =>
      { l with queue := l.queue ++ [⟨tag, ask, .waiting⟩], requestsTaken := min (l.requestsTaken + 1) 4294967295 } :=
  if_pos h

theorem State.takeLookup_full (h : 32 ≤ (s.lane n).queue.length) (tag : Byte) (ask : Option Ask) :
    s.takeLookup n tag ask =
      (s.updLane n fun l => { l with overruns := min (l.overruns + 1) 65535 }).post (.lane n .overrun) :=
  if_neg (Nat.not_lt.mpr h)

/-- What arrives is taken as a LOOKUP: a credit, the count of a malformed one, and the entry (R94, R96, R97). -/
theorem execLookup_received (hr : s.receives n = true) {c : Instr} {tag : Byte} {ask : Option Ask}
    (hc : (∃ d mark hash key, c = .lookupN n tag d mark hash key ∧ ask = some ⟨d, mark, hash, .narrow key⟩) ∨
      (∃ d mark hash key, c = .lookupW n tag d mark hash key ∧ ask = some ⟨d, mark, hash, .wide key⟩) ∨
      ∃ ws, c = .malformedMessage n ws ∧ messageKind ws = 1 ∧ tag = messageTag ws ∧ ask = none) :
    exec c s = .next ((s.updLane n fun l => ({ (if ask = none then { l with malformed := min (l.malformed + 1) 65535 } else l)
      with held := l.held - 1 } : Lane)).takeLookup n tag ask) := by
  rcases hc with ⟨d, mark, hash, key, rfl, rfl⟩ | ⟨d, mark, hash, key, rfl, rfl⟩ | ⟨ws, rfl, hk, rfl, rfl⟩
  · exact congrArg _ (if_pos hr)
  · exact congrArg _ (if_pos hr)
  · refine congrArg _ ((if_neg (by simp [hr])).trans (if_pos hk))

theorem execCreditSent_credit (hr : s.receives n = true) {c : Nat} (hs : (s.lane n).sending = some (.credit c)) :
    execCreditSent n s = .next (s.updLane n fun l =>
      ({ l with sending := none, held := min (l.held + c) 32 } : Lane).startNext) := by
  simp only [execCreditSent, hs, hr, if_true]

theorem execResultSent_result (hr : s.receives n = true) (hs : (s.lane n).sending = some .result) :
    execResultSent n s = .next (s.updLane n fun l =>
      ({ l with sending := none, queue := l.queue.tail, resultsSent := min (l.resultsSent + 1) 4294967295,
                held := min (l.held + 1) 32 } : Lane).startNext) := by
  simp only [execResultSent, hs, hr, if_true]
  rfl

end

/-- A transmitter off UP or busy starts nothing, nor one that owes nothing and whose oldest entry is not DONE (R100). -/
theorem Lane.startNext_idle {l : Lane} (h : l.link ≠ .up ∨ l.sending ≠ none ∨
    (l.owed = 0 ∧ ∀ e rest, l.queue = e :: rest → ∀ r, e.status ≠ .done r)) : l.startNext = l := by
  rcases l.startNext_cases with ⟨hl, hs, ho, -⟩ | ⟨hl, hs, -, hd, -⟩ | he
  · rcases h with h | h | ⟨h, -⟩
    · exact absurd hl h
    · exact absurd hs h
    · omega
  · obtain ⟨e, rest, r, hq, hr⟩ := Lane.headDone_iff.mp hd
    rcases h with h | h | ⟨-, h⟩
    · exact absurd hl h
    · exact absurd hs h
    · exact absurd hr (h e rest hq r)
  · exact he

/-- Settles O37. -/
theorem lookupsAreQueued : Obligations.LookupsAreQueued := by
  intro s n c tag ask hrun hl hc counted
  have hr : s.receives n = true := State.receives_iff.mpr ⟨hrun, hl⟩
  rw [execLookup_received hr hc]
  have hqueue : ∀ l : Lane, (counted l).queue = l.queue := fun l => by simp only [counted]; split <;> rfl
  refine ⟨fun hroom => ?_, fun hfull => ?_⟩
  · rw [State.takeLookup_room (by rw [State.updLane_lane_self]; exact (hqueue (s.lane n)).symm ▸ hroom), State.updLane_updLane]
    exact congrArg _ (State.updLane_congr (by simp only [counted]; split <;> rfl))
  · rw [State.takeLookup_full (by rw [State.updLane_lane_self]; exact (hqueue (s.lane n)).symm ▸ hfull), State.updLane_updLane]
    exact congrArg (fun t => Host.Outcome.next (State.post t _)) (State.updLane_congr (by simp only [counted]; split <;> rfl))

/-- Settles O39. -/
theorem sendsEnd : Obligations.SendsEnd := by
  refine ⟨fun s n c hrun hl hs => ?_, fun s n hrun hl hs => ?_, fun l => ⟨fun hl hs ho => ?_, fun hl hs ho hq => ?_, fun h => ?_⟩⟩
  · rw [exec, execCreditSent_credit (State.receives_iff.mpr ⟨hrun, hl⟩) hs]
  · rw [exec, execResultSent_result (State.receives_iff.mpr ⟨hrun, hl⟩) hs]
  · simp [Lane.startNext, hl, hs, ho]
  · obtain ⟨tag, ask, r, rest, hq⟩ := hq
    have hd : l.headDone = true := Lane.headDone_iff.mpr ⟨_, rest, r, hq, rfl⟩
    simp [Lane.startNext, hl, hs, ho, hd]
  · exact Lane.startNext_idle h

end Sys2Proof.Machine
end

section
/-! PROOFS. The search (chapter 6): the lookup claim, the resolution claim, and the hand-back. -/

namespace Sys2Proof.Machine

-- The proofs are elaborated one after another: each thread counts against the memory in which the text is checked.
set_option Elab.async false

theorem State.working_eq_true {s : State} (hr : s.dev.phase = .running) (hs : s.restarting = false) : s.working = true := by
  simp [State.working, State.running, hr, hs]

/-! ### LOOKUP_CLAIM (R6, R16, R17, R116, R117) -/

section
variable {s : State} {src : Source} {tag : Option Byte} {a : Ask} (hl : s.su.lookup = some ⟨src, tag, a, .matching⟩)
include hl

theorem execLookupClaim_eq : execLookupClaim s =
    .next (if !s.working || !s.rsFree || s.commandAtRouteStore || (s.je.stepClaimWaits && Config.fairnessLimit ≤ s.rs.fairness) then s
      else (if s.je.stepClaimWaits then s.setRs { s.rs with fairness := s.rs.fairness + 1 } else s).lookupClaim
        ⟨src, tag, a, .matching⟩) := by
  rw [execLookupClaim, hl]

theorem execLookupClaim_waits (h : s.rsFree = false ∨ s.commandAtRouteStore = true ∨
    (s.je.stepClaimWaits = true ∧ 16 ≤ s.rs.fairness)) : execLookupClaim s = .next s := by
  rw [execLookupClaim_eq hl]
  refine congrArg _ (if_pos ?_)
  rcases h with h | h | ⟨h, hf⟩
  · simp [h]
  · simp [h]
  · simp [h, Config.fairnessLimit, hf]

theorem execLookupClaim_taken (hw : s.working = true) (hfree : s.rsFree = true) (hc : s.commandAtRouteStore = false)
    (hf : s.je.stepClaimWaits = true → s.rs.fairness < 16) : execLookupClaim s =
      .next ((if s.je.stepClaimWaits then s.setRs { s.rs with fairness := s.rs.fairness + 1 } else s).lookupClaim
        ⟨src, tag, a, .matching⟩) := by
  rw [execLookupClaim_eq hl]
  refine congrArg _ (if_neg ?_)
  simpa [hw, hfree, hc, Config.fairnessLimit] using hf

end

section
variable {s : State} {k : Lookup}

theorem State.lookupClaim_disabled (hd : (s.rs.domain k.ask.domain).enabled = false) : s.lookupClaim k =
    s.handBack k.source (k.ask.hash.toNat % 64) ⟨.discard, .noDomain, false, none, none⟩ := by
  simp only [State.lookupClaim, hd, Bool.not_false, if_true]
  rfl

section
variable (hd : (s.rs.domain k.ask.domain).enabled = true)
include hd

theorem State.lookupClaim_unmatched (hm : s.rs.longestMatch k.ask.domain k.ask.key = none) : s.lookupClaim k =
    s.handBack k.source (k.ask.hash.toNat % 64)
      ⟨(s.rs.domain k.ask.domain).miss.verdict, .noRoute, false, none, none⟩ := by
  simp only [State.lookupClaim, hd, hm, Bool.not_true, Bool.false_eq_true, if_false]
  rfl

variable {r : Route} (hm : s.rs.longestMatch k.ask.domain k.ask.key = some r)
include hm

theorem State.lookupClaim_discard (ht : r.target = .discard) : s.lookupClaim k =
    (s.setRs (s.rs.markMatch k.ask.mark r)).handBack k.source (k.ask.hash.toNat % 64)
      ⟨.discard, .route, false, some (r.ident.len, r.tag), none⟩ := by
  simp only [State.lookupClaim, hd, hm, ht, Bool.not_true, Bool.false_eq_true, if_false]
  rfl

theorem State.lookupClaim_control (ht : r.target = .control) : s.lookupClaim k =
    (s.setRs (s.rs.markMatch k.ask.mark r)).handBack k.source (k.ask.hash.toNat % 64)
      ⟨.control, .route, false, some (r.ident.len, r.tag), none⟩ := by
  simp only [State.lookupClaim, hd, hm, ht, Bool.not_true, Bool.false_eq_true, if_false]
  rfl

theorem State.lookupClaim_resolves (hnd : r.target ≠ .discard) (hnc : r.target ≠ .control) : s.lookupClaim k =
    (s.setRs (s.rs.markMatch k.ask.mark r)).setSu { s.su with
      lookup := some { k with stage := .resolving r.ident.len r.target r.tag (s.rs.domain k.ask.domain).miss } } := by
  simp only [State.lookupClaim, hd, hm, Bool.not_true, Bool.false_eq_true, if_false]
  cases ht : r.target with
  | discard => exact absurd ht hnd
  | control => exact absurd ht hnc
  | pathSet | exit => rfl

end

end

theorem RouteStore.markMatch_eq (rs : RouteStore) (mark : Bool) (r : Route) : rs.markMatch mark r =
    if mark then rs.updRoute r.ident fun x => { x with mark := true, hits := min (x.hits + 1) 4294967295 } else rs := rfl

/-- Settles O41. -/
theorem lookupClaimMatches : Obligations.LookupClaimMatches := by
  intro s src tag a hr hs hl
  have hw := State.working_eq_true hr hs
  refine ⟨fun h => execLookupClaim_waits hl (.inl h), fun h => execLookupClaim_waits hl (.inr (.inl h)),
    fun hst hf => execLookupClaim_waits hl (.inr (.inr ⟨hst, hf⟩)), fun hfree hc hf => ?_⟩
  intro s1 b d
  have htaken : exec .lookupClaim s = .next (s1.lookupClaim ⟨src, tag, a, .matching⟩) :=
    execLookupClaim_taken hl hw hfree hc hf
  have hdom : s1.rs.domain a.domain = d := by simp only [s1]; split <;> rfl
  have hmatch : s1.rs.longestMatch a.domain a.key = s.rs.longestMatch a.domain a.key := by simp only [s1]; split <;> rfl
  have hsu : s1.su = s.su := by simp only [s1]; split <;> rfl
  rw [htaken]
  refine ⟨fun hd => ?_, fun hd hm => ?_, fun hd r hm => ?_⟩
  · exact congrArg _ (State.lookupClaim_disabled (hdom ▸ hd))
  · rw [State.lookupClaim_unmatched (hdom ▸ hd) (hmatch.trans hm)]
    simp only [hdom, b]
  · intro s2
    have hs2 : s1.setRs (s1.rs.markMatch a.mark r) = s2 := by
      rw [RouteStore.markMatch_eq]
      exact apply_ite s1.setRs (a.mark = true) _ _
    refine ⟨fun ht => ?_, fun ht => ?_, fun hnd hnc => ?_⟩
    · rw [State.lookupClaim_discard (hdom ▸ hd) (hmatch.trans hm) ht, hs2]
    · rw [State.lookupClaim_control (hdom ▸ hd) (hmatch.trans hm) ht, hs2]
    · rw [State.lookupClaim_resolves (hdom ▸ hd) (hmatch.trans hm) hnd hnc, hs2, hsu, hdom]

/-! ### RESOLUTION_CLAIM (R65, R66, R118 to R120) -/

section
variable {s : State} {src : Source} {tag : Option Byte} {a : Ask} {len : Nat} {target : Target} {rtag : BitVec 16}
  {miss : DropVerdict} (hw : s.working = true) (hl : s.su.lookup = some ⟨src, tag, a, .resolving len target rtag miss⟩)
include hw hl

theorem execResolutionClaim_waits (h : ¬ (s.pt.taken = some .resolution ∨ s.ptAdmits .resolution = true)) :
    execResolutionClaim s = .next (s.setPt (s.pt.offer .resolution)) := by
  simp only [execResolutionClaim, hl, hw, Bool.not_true, Bool.false_eq_true, if_false, beq_iff_eq, Bool.or_eq_true, h]

theorem execResolutionClaim_taken (h : s.pt.taken = some .resolution ∨ s.ptAdmits .resolution = true) :
    execResolutionClaim s = .next (s.resolution src a len target rtag miss) := by
  simp only [execResolutionClaim, hl, hw, Bool.not_true, Bool.false_eq_true, if_false, beq_iff_eq, Bool.or_eq_true, h, if_true]

end

section
variable {s : State} {src : Source} {a : Ask} {len : Nat} {target : Target} {rtag : BitVec 16} {miss : DropVerdict}

theorem State.resolution_noRead (h : s.pt.resolvePort target = []) : s.resolution src a len target rtag miss =
    (s.setPt { s.pt.withdraw .resolution with taken := none }).handBack src a.bucket
      (s.pt.resolve false a.bucket len target rtag miss) := by
  simp only [State.resolution, h]
  rfl

theorem State.resolution_read {p : Fin 64} (h : s.pt.resolvePort target = [p]) (ha : s.pmon.admits .read = true) :
    s.resolution src a len target rtag miss =
      ((s.setPt { s.pt.withdraw .resolution with taken := none }).setPmon (s.pmon.withdraw .read)).handBack src a.bucket
        (s.pt.resolve (s.port p).live a.bucket len target rtag miss) := by
  simp only [State.resolution, h, PortMonitor.readPorts, ha, if_true]
  rfl

theorem State.resolution_blocked {p : Fin 64} (h : s.pt.resolvePort target = [p]) (ha : s.pmon.admits .read = false) :
    s.resolution src a len target rtag miss =
      (s.setPt { s.pt.withdraw .resolution with taken := some .resolution }).setPmon (s.pmon.offer .read) := by
  simp only [State.resolution, h, PortMonitor.readPorts_blocked ha]
  rfl

end

section
variable {pt : PathTable} {b : Nat} {p q : PathSet} {e : Exit}

theorem PathTable.bucketExit_serves {x : Nat} (hx : p.map[b]? = some (some x)) (he : pt.exit? x = some e) :
    pt.bucketExit p b = some e := by
  simp [PathTable.bucketExit, hx, he]

theorem PathTable.bucketExit_empty (hx : p.map[b]? = some none) : pt.bucketExit p b = none := by
  simp [PathTable.bucketExit, hx]

variable (live : Bool) (len : Nat) (tag : BitVec 16) (miss : DropVerdict)

theorem PathTable.resolve_set {i : Nat} (hp : pt.set? i = some p) (he : pt.bucketExit p b = some e) :
    pt.resolve live b len (.pathSet i) tag miss = .forward false len tag e := by
  simp only [PathTable.resolve, hp, he]

theorem PathTable.resolve_backup {i j : Nat} (hp : pt.set? i = some p) (hempty : p.map[b]? = some none)
    (hb : p.backup = some j) (hq : pt.set? j = some q) (he : pt.bucketExit q b = some e) :
    pt.resolve live b len (.pathSet i) tag miss = .forward true len tag e := by
  have hbe : pt.backupExit p b = some e := by simp [PathTable.backupExit, hb, hq, he]
  simp only [PathTable.resolve, hp, PathTable.bucketExit_empty hempty, hbe]

theorem PathTable.resolve_noPath {i : Nat} (hp : pt.set? i = some p) (hempty : p.map[b]? = some none)
    (hb : p.backup = none ∨ ∃ j q, p.backup = some j ∧ pt.set? j = some q ∧ q.map[b]? = some none) :
    pt.resolve live b len (.pathSet i) tag miss = .matchedNoExit p.emptyVerdict.verdict .noPath len tag := by
  have hbe : pt.backupExit p b = none := by
    rcases hb with hb | ⟨j, q, hb, hq, he⟩
    · simp [PathTable.backupExit, hb]
    · simp [PathTable.backupExit, hb, hq, PathTable.bucketExit_empty he]
  simp only [PathTable.resolve, hp, PathTable.bucketExit_empty hempty, hbe]

theorem PathTable.resolve_exit {i : Nat} (he : pt.exit? i = some e) : pt.resolve live b len (.exit i) tag miss =
    if e.derivedUp live then .forward false len tag e else .matchedNoExit miss.verdict .noPath len tag := by
  simp only [PathTable.resolve, he]

theorem PathTable.resolve_stale {t : Target} (h : (∃ i, t = .pathSet i ∧ pt.set? i = none) ∨ ∃ i, t = .exit i ∧ pt.exit? i = none) :
    pt.resolve live b len t tag miss = .matchedNoExit miss.verdict .stale len tag := by
  rcases h with ⟨i, rfl, h⟩ | ⟨i, rfl, h⟩ <;> simp only [PathTable.resolve, h]

end

/-- Settles O42. -/
theorem resolutionClaimResolves : Obligations.ResolutionClaimResolves := by
  intro s src tag a len target rtag miss r hr hs hl reads taken u
  have hw := State.working_eq_true hr hs
  have hports : ∀ i e, target = .exit i → s.pt.exit? i = some e → s.pt.resolvePort target = [e.port] := by
    rintro i e rfl he
    exact PathTable.portOf_eq he
  have hnone : ¬ reads → s.pt.resolvePort target = [] := fun hno => by
    cases target with
    | discard | control | pathSet => rfl
    | exit i =>
      cases he : s.pt.exit? i with
      | none => simp [PathTable.resolvePort, PathTable.portOf, he]
      | some e => exact absurd ⟨i, e, rfl, he⟩ hno
  refine ⟨execResolutionClaim_waits hw hl, fun ht hrd ha => ?_, fun ht ha => ?_⟩
  · obtain ⟨i, e, hti, he⟩ := hrd
    rw [exec, execResolutionClaim_taken hw hl ht, State.resolution_blocked (hports i e hti he) ha]
  intro b drop forward serves empty hcase
  have hres : ∀ live, (∀ i e, target = .exit i → s.pt.exit? i = some e → live = (s.port e.port).live) →
      s.pt.resolve live b len target rtag miss = r := by
    intro live hlive
    rcases hcase with ⟨i, ht, hp, rfl⟩ | ⟨i, p, e, rfl, hp, ⟨x, hx, he⟩, rfl⟩ |
      ⟨i, p, j, q, e, rfl, hp, hempty, hb, hq, ⟨x, hx, he⟩, rfl⟩ | ⟨i, p, rfl, hp, hempty, hb, rfl⟩ | ⟨i, ht, he, rfl⟩ |
      ⟨i, e, rfl, he, hdown, rfl⟩ | ⟨i, e, rfl, he, hen, hup, rfl⟩
    · exact PathTable.resolve_stale _ _ _ _ (.inl ⟨i, ht, hp⟩)
    · exact PathTable.resolve_set _ _ _ _ hp (PathTable.bucketExit_serves hx he)
    · exact PathTable.resolve_backup _ _ _ _ hp hempty hb hq (PathTable.bucketExit_serves hx he)
    · exact PathTable.resolve_noPath _ _ _ _ hp hempty hb
    · exact PathTable.resolve_stale _ _ _ _ (.inr ⟨i, ht, he⟩)
    · have hd : e.derivedUp live = false := by rcases hdown with h | h <;> simp [Exit.derivedUp, hlive i e rfl he, h]
      rw [PathTable.resolve_exit _ _ _ _ he, hd]
      rfl
    · have hd : e.derivedUp live = true := by simp [Exit.derivedUp, hlive i e rfl he, hen, hup]
      rw [PathTable.resolve_exit _ _ _ _ he, hd]
      rfl
  refine ⟨fun hrd => ?_, fun hno => ?_⟩
  · have hr := ha hrd
    obtain ⟨i, e, hti, he⟩ := hrd
    rw [exec, execResolutionClaim_taken hw hl ht, State.resolution_read (hports i e hti he) hr]
    refine congrArg (fun x => Host.Outcome.next (State.handBack _ src b x)) (hres _ fun i' e' hti' he' => ?_)
    obtain rfl : i = i' := Target.exit.inj (hti.symm.trans hti')
    obtain rfl : e = e' := Option.some.inj (he.symm.trans he')
    rfl
  · rw [exec, execResolutionClaim_taken hw hl ht, State.resolution_noRead (hnone hno)]
    exact congrArg (fun x => Host.Outcome.next (State.handBack _ src b x)) (hres _ fun i e hti he => absurd ⟨i, e, hti, he⟩ hno)

/-! ### The hand-back (R122, R123, R126, R191, R197) -/

theorem Reason.code_lt (r : Reason) : r.code < 8 := by cases r <;> decide

theorem Verdict.code_lt (v : Verdict) : v.code < 4 := by cases v <;> decide

theorem Result.word0_eq (r : Result) (kind low : Nat) : r.word0 kind low =
    wordOf (kind * 2 ^ 28 + r.verdict.code * 2 ^ 26 + r.reason.code * 2 ^ 23 + bitCode r.viaBackup * 2 ^ 22
      + bitCode r.matched.isSome * 2 ^ 21 + bitCode (r.exit.any fun x => x.vlan.isSome) * 2 ^ 20
      + (r.matched.elim 0 Prod.fst) * 2 ^ 8 + low) := by
  rcases r with ⟨v, reason, b, _ | ⟨len, t⟩, _ | x⟩ <;> rfl

/-- No entry becomes DONE where none is GRANTED (R93, R123). -/
theorem Lane.finish_none (r : Result) {l : Lane} (h : ∀ x ∈ l.queue, x.status ≠ .granted) : l.finish r = l := by
  have hq : (l.queue.map fun x => if x.status == .granted then { x with status := .done r } else x) = l.queue :=
    (List.map_congr_left fun x hx => if_neg (by simpa using h x hx)).trans (List.map_id _)
  rw [Lane.finish, hq]

section
variable {s : State} {n : Fin 4} {r : Result}

theorem State.handBack_granted {before after : List Entry} {e : Entry} (hq : (s.lane n).queue = before ++ e :: after)
    (hg : e.status = .granted) (ho : ∀ x ∈ before ++ after, x.status ≠ .granted) (b : Nat) :
    s.handBack (.lane n) b r = (s.setSu { s.su with lookup := none }).updLane n fun l =>
      ({ l with queue := before ++ { e with status := .done r } :: after } : Lane).startNext := by
  rw [State.handBack_lane, State.updLane_setSu]
  refine congrArg (State.setSu · _) (State.updLane_congr (congrArg Lane.startNext ?_))
  have hfin := Lane.finish_queue_append r (s.lane n) hg ho
  rwa [← hq] at hfin

theorem State.handBack_gone (h : ∀ x ∈ (s.lane n).queue, x.status ≠ .granted) (b : Nat) :
    s.handBack (.lane n) b r = (s.setSu { s.su with lookup := none }).updLane n Lane.startNext := by
  rw [State.handBack_lane, State.updLane_setSu]
  exact congrArg (State.setSu · _) (State.updLane_congr (congrArg Lane.startNext (Lane.finish_none r h)))

theorem State.handBack_probe {ws : List Word} (h : s.cu = .busy ws .probing) (b : Nat) :
    s.handBack .probe b r = (s.setSu { s.su with lookup := none }).setCu
      (.busy ws (.answered ⟨.ok, r.word0 0 b :: r.exitWords⟩)) := by
  simp only [State.handBack, State.setSu_cu, h]
  rfl

end

/-- The fields of a word that is laid out as the first of a RESULT. -/
theorem bits_resultWord {k v r b m x len low : Nat} (hk : k < 16) (hv : v < 4) (hr : r < 8) (hb : b ≤ 1) (hm : m ≤ 1)
    (hx : x ≤ 1) (hlen : len ≤ 128) (hlow : low < 256) :
    let w := wordOf (k * 2 ^ 28 + v * 2 ^ 26 + r * 2 ^ 23 + b * 2 ^ 22 + m * 2 ^ 21 + x * 2 ^ 20 + len * 2 ^ 8 + low)
    bits w 31 28 = k ∧ bits w 27 26 = v ∧ bits w 25 23 = r ∧ bits w 22 22 = b ∧ bits w 21 21 = m ∧ bits w 20 20 = x ∧
      bits w 19 16 = 0 ∧ bits w 15 8 = len ∧ bits w 7 0 = low := by
  intro w
  have hfield : ∀ hi lo, bits w hi lo = _ := bits_wordOf (by omega)
  refine ⟨?_, ?_, ?_, ?_, ?_, ?_, ?_, ?_, ?_⟩ <;> rw [hfield] <;> omega

theorem pack16_zero (a : Nat) : pack16 a 0 = wordOf (a * 2 ^ 16) := by rw [pack16_eq, Nat.add_zero]

theorem bitCode_eq_one {b : Bool} : bitCode b = 1 ↔ b = true := by cases b <;> decide

theorem Result.exitWords_layout (r : Result) : r.exitWords =
    r.exit.elim [wordOf (r.matched.elim 0 (·.2.toNat) * 2 ^ 16), 0#32, 0#32, 0#32] fun x =>
      [wordOf (r.matched.elim 0 (·.2.toNat) * 2 ^ 16 + x.id), x.addr.extractLsb' 16 32,
        wordOf ((x.addr.extractLsb' 0 16).toNat * 2 ^ 16 + x.mtu),
        wordOf (x.port.val * 2 ^ 24 + x.vlan.getD 0 * 2 ^ 12)] := by
  rcases r with ⟨v, reason, b, m, _ | x⟩
  · cases m <;> simp only [Result.exitWords, pack16_zero, Option.elim]
  · cases m <;> simp only [Result.exitWords, pack16_eq, Option.elim]

/-- Settles O43. -/
theorem resultIsHandedBack : Obligations.ResultIsHandedBack := by
  refine ⟨fun s n b r before e after hq hg ho => State.handBack_granted hq hg ho b, fun s n b r h => State.handBack_gone h b,
    fun s ws b r h => State.handBack_probe h b, fun r => ?_, fun r kind low hk hlow hlen => ?_⟩
  · rw [Result.exitWords_layout]
    rcases r with ⟨v, reason, b, _ | ⟨len, t⟩, _ | ⟨id, p, ad, _ | vl, mtu⟩⟩ <;> rfl
  · intro w
    have hl : r.matched.elim 0 Prod.fst ≤ 128 := by
      rcases h : r.matched with _ | ⟨len, t⟩
      · exact Nat.zero_le _
      · exact hlen len t h
    have hfields := bits_resultWord hk r.verdict.code_lt r.reason.code_lt (bitCode_le r.viaBackup)
      (bitCode_le r.matched.isSome) (bitCode_le (r.exit.any fun x => x.vlan.isSome)) hl hlow
    rw [← r.word0_eq kind low] at hfields
    obtain ⟨hkind, hverdict, hreason, hbackup, hmatched, hvlan, hzero, hlength, hlast⟩ := hfields
    refine ⟨hkind, hverdict, hreason, ?_, ?_, ?_, hzero, hlength.trans ?_, hlast⟩
    · rw [show bits w 22 22 = _ from hbackup]
      exact bitCode_eq_one
    · rw [show bits w 21 21 = _ from hmatched, bitCode_eq_one]
      exact Option.isSome_iff_ne_none
    · rw [show bits w 20 20 = _ from hvlan, bitCode_eq_one, Option.any_eq_true]
      exact exists_congr fun x => and_congr Iff.rfl Option.isSome_iff_ne_none
    · rcases r.matched with _ | m <;> rfl

end Sys2Proof.Machine
end

section
/-! PROOFS. Jobs: JOB START, the choice of the next step, JOB READ, the ending of a job and JOB CANCEL (chapter 7). -/

namespace Sys2Proof.Machine

-- The proofs are elaborated one after another: each thread counts against the memory in which the text is checked.
set_option Elab.async false

/-! ### The choice of the next step (R140) -/

/-- The first of the cyclic order is the one at place `k` when it qualifies and none before it does. -/
theorem find?_cyclicAfter_place {P : Fin 4 → Bool} {c n : Fin 4} {k : Nat} (hk : k < 4) (hn : n.val = (c.val + 1 + k) % 4)
    (he : P n = true) (hbefore : ∀ (j : Nat) (m : Fin 4), j < k → m.val = (c.val + 1 + j) % 4 → P m = false) :
    (cyclicAfter c).find? P = some n := by
  have hlen : k < (cyclicAfter c).length := hk
  refine List.find?_eq_some_iff_getElem.mpr ⟨he, k, hlen, Fin.ext ?_, fun j hj => ?_⟩
  · rw [cyclicAfter_getElem, hn]
  · simp [hbefore j _ hj (cyclicAfter_getElem c (hj.trans hlen))]

theorem JobEngine.stepping?_eq_none {je : JobEngine} (h : ∀ m : Fin 4, je.slots[m].stepping = false) : je.stepping? = none :=
  List.find?_eq_none.mpr fun m _ => by simpa using h m

section
variable {s : State} {n : Fin 4} {j : Job} (hw : s.working = true) (hidle : ∀ m, (s.slot m).stepping = false)
  (hnext : (cyclicAfter s.je.last).find? (fun n => (s.slot n).eligible) = some n) (hj : s.slot n = .running j) (together : Bool)
include hw hidle hnext hj

theorem State.presentStep_survey {f : Filter} {a : Action} (hs : j.spec = .survey f a) : s.presentStep together =
    (s.setSlot n (.running { j with step := .waiting })).setJe
      { (s.setSlot n (.running { j with step := .waiting })).je with last := n } := by
  have hnone : s.je.stepping? = none := JobEngine.stepping?_eq_none hidle
  simp only [State.presentStep, hw, hnone, hnext, hj, hs, Bool.not_true, Option.isSome_none, Bool.or_self,
    Bool.false_eq_true, if_false]
  rfl

theorem State.presentStep_refill {x y : Nat} (hs : j.spec = .refill x y) : s.presentStep together =
    ((s.setSlot n (.running { j with step := .waiting })).setJe
      { (s.setSlot n (.running { j with step := .waiting })).je with last := n }).setPt (s.pt.present (.refill n) together) := by
  have hnone : s.je.stepping? = none := JobEngine.stepping?_eq_none hidle
  simp only [State.presentStep, hw, hnone, hnext, hj, hs, Bool.not_true, Option.isSome_none, Bool.or_self,
    Bool.false_eq_true, if_false]
  rfl

end

/-! ### JOB START (R131, R132) -/

section
variable {s : State} {ps : List Word} {spec : JobSpec} (hspec : jobSpecOf ps = some spec)
include hspec

theorem jobStartWork_badKey (hk : spec.keyOk = false) : jobStartWork ps s = refuse s .badKey := by
  simp only [jobStartWork, hspec, hk, Bool.not_false, if_true]

variable (hk : spec.keyOk = true)
include hk

theorem jobStartWork_noSlot (h : ∀ n, s.slot n ≠ .idle) : jobStartWork ps s = refuse s .noSlot := by
  have hnone : (fours.find? fun n => s.slot n == .idle) = none := List.find?_eq_none.mpr fun n _ => by simpa using h n
  simp only [jobStartWork, hspec, hk, hnone, Bool.not_true, Bool.false_eq_true, if_false]

variable {n : Fin 4} (hfree : (fours.find? fun n => s.slot n == .idle) = some n)
include hfree

theorem jobStartWork_noTarget (ht : spec.takePin s.pt = none) : jobStartWork ps s = refuse s .noTarget := by
  simp only [jobStartWork, hspec, hk, hfree, ht, Bool.not_true, Bool.false_eq_true, if_false]

theorem jobStartWork_started {pt : PathTable} (ht : spec.takePin s.pt = some pt) : jobStartWork ps s =
    answerOk (((s.setPt pt).setSlot n (.running spec.start)).presentStep false) [pack8 n 0 0 0] := by
  simp only [jobStartWork, hspec, hk, hfree, ht, Bool.not_true, Bool.false_eq_true, if_false]

end

/-- The lowest IDLE slot (R132). -/
theorem State.find?_idle {s : State} {n : Fin 4} (hn : s.slot n = .idle)
    (hlow : ∀ m : Fin 4, m.val < n.val → s.slot m ≠ .idle) : (fours.find? fun n => s.slot n == .idle) = some n := by
  cases h : fours.find? fun n => s.slot n == .idle with
  | none => exact absurd hn (by simpa using List.find?_eq_none.mp h n (mem_fours n))
  | some m =>
    have hasc : fours.Pairwise fun a b => a.val < b.val := by decide
    rcases find?_least hasc h n (mem_fours n) (by simpa using hn) with rfl | hlt
    · rfl
    · exact absurd (by simpa using List.find?_some h) (hlow m hlt)

theorem JobSpec.takePin_none {spec : JobSpec} (h : spec.pin = none) (pt : PathTable) : spec.takePin pt = some pt := by
  simp only [JobSpec.takePin, h]

theorem JobSpec.takePin_refused {spec : JobSpec} {t : Target} (h : spec.pin = some t) {pt : PathTable}
    (ht : pt.stands t = false) : spec.takePin pt = none := by
  simp only [JobSpec.takePin, h, PathTable.takePin, ht, Bool.false_eq_true, if_false]

theorem JobSpec.takePin_taken {spec : JobSpec} {t : Target} (h : spec.pin = some t) {pt : PathTable}
    (ht : pt.stands t = true) : spec.takePin pt = some (pt.countPin (· + 1) t) := by
  simp only [JobSpec.takePin, h, PathTable.takePin, ht, if_true]

/-! ### JOB READ (R147, R198) -/

section
variable {s : State} {ps : List Word} {n : Fin 4} (hn : bits (param ps 0) 31 24 = n.val)
include hn

theorem jobReadWork_idle (h : s.slot n = .idle) : jobReadWork ps s = answerOk s [0#32] := by
  simp only [jobReadWork, hn, inRange_val, h]

theorem jobReadWork_running {j : Job} (h : s.slot n = .running j) : jobReadWork ps s = answerOk s (j.readWords 1) := by
  simp only [jobReadWork, hn, inRange_val, h]

theorem jobReadWork_ended {j : Job} (h : s.slot n = .ended j) : jobReadWork ps s = answerOk s (j.readWords 2) := by
  simp only [jobReadWork, hn, inRange_val, h]

end

theorem pack8_high (a : Nat) : pack8 a 0 0 0 = BitVec.ofNat 32 (a * 2 ^ 24) := by
  rw [pack8_eq, Nat.zero_mul, Nat.zero_mul, Nat.add_zero, wordOf]

theorem pack8_congr {a a' b b' c c' d d' : Nat} (ha : a = a') (hb : b = b') (hc : c = c') (hd : d = d') :
    pack8 a b c d = pack8 a' b' c' d' := by rw [ha, hb, hc, hd]

theorem quad_congr {a a' b b' c c' d d' : Word} (ha : a = a') (hb : b = b') (hc : c = c') (hd : d = d') :
    [a, b, c, d] = [a', b', c', d'] := by rw [ha, hb, hc, hd]

theorem mul_bitCode (k : Nat) (b : Bool) : k * bitCode b = if b then k else 0 := by
  cases b <;> simp [bitCode]

/-- Settles O44. -/
theorem jobsStartAndRotate : Obligations.JobsStartAndRotate := by
  unfold Obligations.JobsStartAndRotate
  intro keyWords family target words
  have htarget : ∀ t : Target, t.word = target t := fun t => by cases t <;> simp only [target, Target.word, Nat.one_mul]
  have hread : ∀ (j : Job) k, j.readWords k = words j k := by
    rintro ⟨spec, cursor, visited, matched, acted, step, outcome⟩ k
    cases spec with
    | refill first last =>
      refine congrArg₂ List.cons (pack8_congr rfl rfl ?_ ?_) (congrArg (fun l => wordOf visited :: wordOf matched :: wordOf acted :: l)
        (congrArg (fun w => [pack16 first last, w]) ?_))
      · rcases outcome with _ | _ | _ <;> rfl
      · cases cursor <;> rfl
      · rcases cursor with _ | _ | _ <;> rfl
    | survey f a =>
      refine congrArg₂ List.cons (pack8_congr rfl rfl ?_ ?_) (congrArg (fun l => wordOf visited :: wordOf matched :: wordOf acted :: l)
        ((congrArg₂ (· ++ ·) (congrArg₂ (· ++ ·) (quad_congr (pack8_congr rfl ?_ ?_ ?_) (pack8_congr ?_ ?_ ?_ rfl) ?_ ?_) ?_) ?_).trans
          (List.nil_append _).symm))
      · rcases outcome with _ | _ | _ <;> rfl
      · cases cursor <;> rfl
      · cases a <;> rfl
      · rw [mul_bitCode, mul_bitCode, mul_bitCode, mul_bitCode, bitCode_eq]
      · cases f.cover <;> rfl
      · cases f.domain <;> rfl
      · rcases f.family with _ | _ | _ <;> rfl
      · rcases f.cls with _ | _ | _ <;> rfl
      · cases f.target with
        | none => rfl
        | some t => exact htarget t
      · cases a with
        | repoint t => exact htarget t
        | count | retire | sweep | clearMarks => rfl
      · rcases f.cover with _ | ⟨_ | _, _⟩ <;> rfl
      · rcases cursor with _ | ⟨d, _ | _, len⟩ | _ <;> rfl
  refine ⟨fun s ps spec hw hspec => ⟨fun hk => ?_, fun hk => ⟨fun hno => ?_, fun n hn hlow => ⟨fun t hp ht => ?_, fun ht => ?_⟩⟩⟩,
    fun s n j k together hr hs hidle hj ho hstep hk hn hbefore => ?_, fun s ps n hw hn => ⟨fun h => ?_, fun j h => ?_, fun j h => ?_⟩⟩
  · exact exec_refused (c := .jobStart) rfl hw (jobStartWork_badKey hspec hk)
  · exact exec_refused (c := .jobStart) rfl hw (jobStartWork_noSlot hspec hk hno)
  · exact exec_refused (c := .jobStart) rfl hw
      (jobStartWork_noTarget hspec hk (State.find?_idle hn hlow) (JobSpec.takePin_refused hp ht))
  · intro pt
    have htake : spec.takePin s.pt = some pt := by
      cases hp : spec.pin with
      | none => simp only [pt, hp, JobSpec.takePin_none hp]
      | some t => simp only [pt, hp, JobSpec.takePin_taken hp (ht t hp)]
    rw [← pack8_high]
    exact exec_answered (c := .jobStart) rfl hw (jobStartWork_started hspec hk (State.find?_idle hn hlow) htake) (by simp)
  · have hnext : (cyclicAfter s.je.last).find? (fun n => (s.slot n).eligible) = some n :=
      find?_cyclicAfter_place hk hn (by simp [hj, Slot.eligible, ho, hstep]) hbefore
    have hw := State.working_eq_true hr hs
    exact ⟨fun f a hsp => State.presentStep_survey hw hidle hnext hj together hsp,
      fun x y hsp => State.presentStep_refill hw hidle hnext hj together hsp⟩
  · exact exec_answered (c := .jobRead) rfl hw (jobReadWork_idle hn h) rfl
  · rw [← hread]
    exact exec_answered (c := .jobRead) rfl hw (jobReadWork_running hn h) rfl
  · rw [← hread]
    exact exec_answered (c := .jobRead) rfl hw (jobReadWork_ended hn h) rfl

end Sys2Proof.Machine
end

section
/-! PROOFS. The steps of the jobs and their endings: PIN_CLAIM, JOB CANCEL, REFILL_CLAIM and STEP_CLAIM (sections 7.3 to 7.7). -/

namespace Sys2Proof.Machine

-- The proofs are elaborated one after another: each thread counts against the memory in which the text is checked.
set_option Elab.async false

/-! ### Slots -/

@[simp] theorem State.setSlot_setSlot (s : State) (n : Fin 4) (x y : Slot) : (s.setSlot n x).setSlot n y = s.setSlot n y := by
  simp [State.setSlot, State.setJe]

theorem State.setCu_self {s : State} {x : CommandUnit} (h : s.cu = x) : s.setCu x = s := by rw [← h]; rfl

/-! ### The ending of a job (R143, R144) -/

section
variable {s : State} {n : Fin 4} {j : Job} (hj : s.slot n = .running j)
include hj

theorem State.needsPin_eq : (s.slot n).needsPin = (j.outcome.isSome && j.step == .none && j.spec.pin.isSome) := by
  rw [hj, Slot.needsPin]

theorem State.beginEnding_pin {o : JobOutcome} (ho : j.outcome = some o) (hs : j.step = .none) (hp : j.spec.pin ≠ none) :
    s.beginEnding n = s.setPt (s.pt.present (.pin n)) := by
  rw [State.beginEnding, State.needsPin_eq hj, if_pos (by simp [ho, hs, Option.isSome_iff_ne_none.mpr hp])]

theorem State.endSlot_ended {o : JobOutcome} (ho : j.outcome = some o) :
    s.endSlot n = (s.setSlot n (.ended j)).post (.job n j.spec.kind o j.visited j.matched j.acted) := by
  simp only [State.endSlot, hj, ho]

theorem State.beginEnding_ended {o : JobOutcome} (ho : j.outcome = some o) (hs : j.step = .none) (hp : j.spec.pin = none) :
    s.beginEnding n = (s.setSlot n (.ended j)).post (.job n j.spec.kind o j.visited j.matched j.acted) := by
  rw [State.beginEnding, State.needsPin_eq hj, if_neg (by simp [hp]), hj]
  simp only [hs, beq_self_eq_true, if_true, State.endSlot_ended hj ho]

theorem State.beginEnding_idle (h : j.outcome = none ∨ j.step ≠ .none) : s.beginEnding n = s := by
  rcases s.beginEnding_cases n with ⟨k, o, t, hk, ho, hs, -⟩ | ⟨k, o, hk, ho, hs, -⟩ | h'
  · obtain rfl := Slot.running.inj (hj.symm.trans hk)
    rcases h with h | h
    · rw [h] at ho; cases ho
    · exact absurd hs h
  · obtain rfl := Slot.running.inj (hj.symm.trans hk)
    rcases h with h | h
    · rw [h] at ho; cases ho
    · exact absurd hs h
  · exact h'

end

/-- The answer of JOB CANCEL in the words of an outcome and a job (R145, R198). -/
theorem State.cancelProgress_ended {s : State} {n : Fin 4} {j : Job} {o : JobOutcome} (hj : s.slot n = .ended j)
    (ho : j.outcome = some o) : s.cancelProgress n = .answered ⟨.ok, [BitVec.ofNat 32 ((if o = .done then 1 else 2) * 2 ^ 24),
      wordOf j.visited, wordOf j.matched, wordOf j.acted]⟩ := by
  have hcode : o.code = if o = .done then 1 else 2 := by cases o <;> rfl
  simp only [State.cancelProgress, hj, ho, hcode, pack8_high]
  rfl

theorem State.cancelProgress_unended {s : State} {n : Fin 4} (h : ∀ j, s.slot n ≠ .ended j) :
    s.cancelProgress n = .cancelling n := by
  unfold State.cancelProgress
  split
  · exact absurd ‹_› (h _)
  · rfl

theorem State.settleCancel_idle {s : State} (h : ∀ ws m, s.cu = .busy ws (.cancelling m) → ∀ j, s.slot m ≠ .ended j) :
    s.settleCancel = s := by
  unfold State.settleCancel
  split
  · rename_i ws m hcu
    rw [State.cancelProgress_unended (h ws m hcu)]
    exact State.setCu_self hcu
  · rfl

theorem State.settleCancel_answered {s : State} {ws : List Word} {n : Fin 4} {j : Job} {o : JobOutcome}
    (hcu : s.cu = .busy ws (.cancelling n)) (hj : s.slot n = .ended j) (ho : j.outcome = some o) :
    s.settleCancel = s.setCu (.busy ws (.answered ⟨.ok, [BitVec.ofNat 32 ((if o = .done then 1 else 2) * 2 ^ 24),
      wordOf j.visited, wordOf j.matched, wordOf j.acted]⟩)) := by
  simp only [State.settleCancel, hcu, State.cancelProgress_ended hj ho]

@[simp] theorem State.post_slot (s : State) (p : Posting) (n : Fin 4) : (s.post p).slot n = s.slot n :=
  congrArg (fun je : JobEngine => je.slots[n]) (s.post_je p)

/-! ### What follows a step (R140, R143, R144) -/

section
variable {s : State} {n : Fin 4} {j : Job}

/-- No JOB CANCEL of another slot that is ENDED waits. -/
def State.noOtherCancel (s : State) (n : Fin 4) : Prop :=
  ∀ ws m, s.cu = .busy ws (.cancelling m) → m = n ∨ ∀ i, s.slot m ≠ .ended i

/-- While the slot runs, a JOB CANCEL of it or of another waits on. -/
theorem State.settleCancel_running {t : State} (hc : s.noOtherCancel n) (hcu : t.cu = s.cu) (hn : t.slot n = .running j)
    (ho : ∀ m, m ≠ n → t.slot m = s.slot m) : t.settleCancel = t := by
  refine State.settleCancel_idle fun ws m h i => ?_
  by_cases hm : m = n
  · rw [hm, hn]
    exact Slot.noConfusion
  · rw [ho m hm]
    exact (hc ws m (hcu.symm.trans h)).resolve_left hm i

theorem State.settleCancel_none {t : State} (hc : s.noOtherCancel n) (hno : ∀ ws, s.cu ≠ .busy ws (.cancelling n))
    (hcu : t.cu = s.cu) (ho : ∀ m, m ≠ n → t.slot m = s.slot m) : t.settleCancel = t := by
  refine State.settleCancel_idle fun ws m h i => ?_
  have hm : m ≠ n := fun hm => hno ws (hcu.symm.trans (hm ▸ h))
  rw [ho m hm]
  exact (hc ws m (hcu.symm.trans h)).resolve_left hm i

theorem State.finishStep_goesOn (hc : s.noOtherCancel n) (ho : j.outcome = none) :
    s.finishStep n j = (s.setSlot n (.running { j with step := .none })).presentStep false := by
  have hn := s.setSlot_slot_self n (.running { j with step := .none })
  simp only [State.finishStep]
  rw [State.beginEnding_idle hn (.inl ho), State.settleCancel_running hc (s.setSlot_cu n _) hn fun m hm => s.setSlot_slot_ne _ hm, State.needsPin_eq hn]
  simp [ho]

section
variable {o : JobOutcome} (ho : j.outcome = some o)
include ho

theorem State.finishStep_pinned (hc : s.noOtherCancel n) (hp : j.spec.pin ≠ none) : s.finishStep n j =
    ((s.setSlot n (.running { j with step := .none })).setPt (s.pt.present (.pin n))).presentStep true := by
  have hn := s.setSlot_slot_self n (.running { j with step := .none })
  have hpt : ∀ x, State.settleCancel ((s.setSlot n (.running { j with step := .none })).setPt x) =
      (s.setSlot n (.running { j with step := .none })).setPt x := fun x =>
    State.settleCancel_running (t := (s.setSlot n (.running { j with step := .none })).setPt x) hc rfl hn
      fun m hm => s.setSlot_slot_ne _ hm
  simp only [State.finishStep]
  rw [State.beginEnding_pin hn ho rfl hp, hpt]
  have hneeds : (((s.setSlot n (.running { j with step := .none })).setPt (s.pt.present (.pin n))).slot n).needsPin = true :=
    (State.needsPin_eq hn).trans (by simp [ho, Option.isSome_iff_ne_none.mpr hp])
  exact congrArg _ hneeds

/-- The state in which the slot is ENDED and its JOB record posted. -/
def State.endedWith (s : State) (n : Fin 4) (j : Job) (o : JobOutcome) : State :=
  (s.setSlot n (.ended j)).post (.job n j.spec.kind o j.visited j.matched j.acted)

omit ho in
@[simp] theorem State.endedWith_cu (s : State) (n : Fin 4) (j : Job) (o : JobOutcome) : (s.endedWith n j o).cu = s.cu := by
  simp [State.endedWith]

omit ho in
@[simp] theorem State.endedWith_slot (s : State) (n : Fin 4) (j : Job) (o : JobOutcome) : (s.endedWith n j o).slot n = .ended j := by
  simp [State.endedWith]

omit ho in
theorem State.endedWith_slot_ne (s : State) {n m : Fin 4} (j : Job) (o : JobOutcome) (h : m ≠ n) :
    (s.endedWith n j o).slot m = s.slot m := by
  rw [State.endedWith, State.post_slot, State.setSlot_slot_ne s _ h]

theorem State.finishStep_ended (hp : j.spec.pin = none) :
    s.finishStep n j = (s.endedWith n { j with step := .none } o).settleCancel.presentStep false := by
  have hn := s.setSlot_slot_self n (.running { j with step := .none })
  have hend := State.beginEnding_ended hn ho rfl hp
  rw [State.setSlot_setSlot] at hend
  have hslot : ((s.endedWith n { j with step := .none } o).settleCancel.slot n).needsPin = false := by
    have : (s.endedWith n { j with step := .none } o).settleCancel.slot n = .ended { j with step := .none } := by
      rw [← State.endedWith_slot s n { j with step := .none } o]
      exact congrArg (fun je : JobEngine => je.slots[n]) (by simp)
    rw [this]
    rfl
  simp only [State.finishStep]
  rw [hend]
  exact congrArg _ hslot

end

end

/-! ### PIN_CLAIM (R144) -/

section
variable {s : State} {n : Fin 4} {j : Job} {t : Target} (hj : s.slot n = .running j) (hp : j.spec.pin = some t)
include hj hp

theorem execPinClaim_waits (h : s.ptTakes (.pin n) = false) : execPinClaim n s = .next s := by
  simp only [execPinClaim, hj, hp, h, Bool.and_false, Bool.false_eq_true, if_false]

theorem execPinClaim_taken {o : JobOutcome} (hw : s.working = true) (ho : j.outcome = some o) (hs : j.step = .none)
    (h : s.ptTakes (.pin n) = true) : execPinClaim n s =
      .next (((s.setPt ((s.pt.withdraw (.pin n)).countPin (· - 1) t)).endedWith n j o).settleCancel.presentStep false) := by
  have hneeds : (s.slot n).needsPin = true := (State.needsPin_eq hj).trans (by simp [ho, hs, hp])
  have hend : (s.setPt ((s.pt.withdraw (.pin n)).releasePin t)).endSlot n = _ :=
    State.endSlot_ended (s := s.setPt ((s.pt.withdraw (.pin n)).releasePin t)) hj ho
  rw [execPinClaim, hj]
  simp only [hp]
  rw [← hj, hneeds, hw, h, hend]
  rfl

end

/-! ### JOB CANCEL (R145) -/

section
variable {s : State} {ps : List Word} {n : Fin 4} (hn : bits (param ps 0) 31 24 = n.val)
include hn

theorem jobCancelWork_notRunning (h : ∀ j, s.slot n ≠ .running j) : jobCancelWork ps s = refuse s .notRunning := by
  simp only [jobCancelWork, hn, inRange_val]

variable {j : Job} (hj : s.slot n = .running j)
include hj

theorem jobCancelWork_decided (ho : j.outcome ≠ none) : jobCancelWork ps s = (s, .cancelling n) := by
  simp only [jobCancelWork, hn, inRange_val, hj, Option.isSome_iff_ne_none.mpr ho, if_true]

theorem jobCancelWork_undecided (ho : j.outcome = none) {t : State}
    (ht : ((s.withdrawStep n).decideCancelled n).beginEnding n = t) :
    jobCancelWork ps s = (t.presentStep (t.slot n).needsPin, t.cancelProgress n) := by
  simp only [jobCancelWork, hn, inRange_val, hj, ho, ht, Option.isSome_none, Bool.false_eq_true, if_false]

end

section
variable {s : State} {n : Fin 4} {j : Job} (hj : s.slot n = .running j)
include hj

theorem State.withdrawStep_idle (hs : j.step ≠ .waiting) : s.withdrawStep n = s := by
  simp only [State.withdrawStep, hj, beq_iff_eq, hs, if_false]

theorem State.withdrawStep_survey (hs : j.step = .waiting) {f : Filter} {a : Action} (hsp : j.spec = .survey f a) :
    s.withdrawStep n = (s.setRs { s.rs with fairness := 0 }).setSlot n (.running { j with step := .none }) := by
  simp only [State.withdrawStep, hj, hs, hsp, beq_self_eq_true, if_true]
  rfl

theorem State.withdrawStep_refill (hs : j.step = .waiting) {x y : Nat} (hsp : j.spec = .refill x y) :
    s.withdrawStep n = (s.setPt (s.pt.withdraw (.refill n))).setSlot n (.running { j with step := .none }) := by
  simp only [State.withdrawStep, hj, hs, hsp, beq_self_eq_true, if_true]
  rfl

theorem State.decideCancelled_eq :
    s.decideCancelled n = s.setSlot n (.running { j with outcome := some .cancelled }) := by
  simp only [State.decideCancelled, hj]

end

/-- While a step is WAITING or TAKEN the JE makes no choice (R140). -/
theorem State.presentStep_stepping {s : State} {n : Fin 4} (h : (s.slot n).stepping = true) (together : Bool) :
    s.presentStep together = s := by
  rcases s.presentStep_cases together with h' | ⟨-, -, -, -, -, -, hnone, -⟩
  · exact h'
  · exact absurd h (List.find?_eq_none.mp hnone n (mem_fours n))

/-- Settles O47. -/
theorem jobsEnd : Obligations.JobsEnd := by
  unfold Obligations.JobsEnd
  intro answer
  refine ⟨fun s n j hc => ?_, fun s n j o t hr hs hj ho hstep hp => ⟨fun h => ?_, fun h => ?_⟩, fun s ps n hw hn => ⟨fun h => ?_, fun j hj => ⟨fun ho => ?_, fun ho hstep => ?_, fun ho hstep => ?_⟩⟩⟩
  · intro rest
    refine ⟨State.finishStep_goesOn hc, fun o ho hp => ?_, fun o ho hp => State.finishStep_pinned ho hc hp⟩
    intro ended
    rw [State.finishStep_ended ho hp]
    refine ⟨fun hno => ?_, fun ws hcu => ?_⟩
    · rw [State.settleCancel_none hc hno (by simp) fun m hm => State.endedWith_slot_ne s _ _ hm]
      rfl
    · rw [State.settleCancel_answered (j := rest) ((State.endedWith_cu ..).trans hcu) (State.endedWith_slot ..) ho]
      rfl
  · exact execPinClaim_waits hj hp h
  · intro u
    have hu : exec (.pinClaim n) s = .next (u.settleCancel.presentStep false) :=
      execPinClaim_taken hj hp (State.working_eq_true hr hs) ho hstep h
    rw [hu]
    refine ⟨fun hno => ?_, fun ws hcu => ?_⟩
    · have hidle : u.settleCancel = u := State.settleCancel_idle fun ws m hcu i => by
        have hcu' : u.cu = s.cu := State.endedWith_cu ..
        obtain ⟨hm, hslot⟩ := hno ws m (hcu'.symm.trans hcu)
        have hu' : u.slot m = s.slot m := State.endedWith_slot_ne _ j o hm
        exact hu' ▸ hslot i
      rw [hidle]
    · have hcu' : u.cu = s.cu := State.endedWith_cu ..
      have hslot : u.slot n = .ended j := State.endedWith_slot ..
      rw [State.settleCancel_answered (hcu'.trans hcu) hslot ho]
  · exact exec_refused (c := .jobCancel) rfl hw (jobCancelWork_notRunning hn h)
  · exact exec_progress (c := .jobCancel) rfl hw (jobCancelWork_decided hn hj ho) rfl
  · have hend : ((s.withdrawStep n).decideCancelled n).beginEnding n =
        s.setSlot n (.running { j with outcome := some .cancelled }) := by
      rw [State.withdrawStep_idle hj (by simp [hstep]), State.decideCancelled_eq hj]
      exact State.beginEnding_idle (s.setSlot_slot_self n _) (.inr (by simp [hstep]))
    have hslot := s.setSlot_slot_self n (.running { j with outcome := some .cancelled })
    have hneeds : ((s.setSlot n (.running { j with outcome := some .cancelled })).slot n).needsPin = false :=
      (State.needsPin_eq hslot).trans (by simp [hstep])
    have hwork := jobCancelWork_undecided hn hj ho hend
    rw [hneeds, State.presentStep_stepping (n := n) (by simp [Slot.stepping, hstep]),
      State.cancelProgress_unended (by simp [hslot])] at hwork
    exact exec_progress (c := .jobCancel) rfl hw hwork rfl
  · intro s1 rest
    have hcancelled : (s.withdrawStep n).decideCancelled n = s1.setSlot n (.running rest) := by
      by_cases hwait : j.step = .waiting
      · cases hsp : j.spec with
        | survey f a =>
          have hs1 : s1 = s.setRs { s.rs with fairness := 0 } := by simp only [s1, hwait, hsp, if_true]
          rw [State.withdrawStep_survey hj hwait hsp, State.decideCancelled_eq (State.setSlot_slot_self ..), State.setSlot_setSlot, hs1]
        | refill x y =>
          have hs1 : s1 = s.setPt (s.pt.withdraw (.refill n)) := by simp only [s1, hwait, hsp, if_true]
          rw [State.withdrawStep_refill hj hwait hsp, State.decideCancelled_eq (State.setSlot_slot_self ..), State.setSlot_setSlot, hs1]
      · have hnone : j.step = .none := by
          cases h : j.step with
          | none => rfl
          | waiting => exact absurd h hwait
          | taken => exact absurd h hstep
        have hrest : rest = { j with outcome := some .cancelled } := by simp only [rest, ← hnone]
        rw [State.withdrawStep_idle hj hwait, State.decideCancelled_eq hj, hrest]
        simp only [s1, hwait, if_false]
    have hcu : s1.cu = s.cu := by
      simp only [s1]
      split
      · split <;> rfl
      · rfl
    have hrun := s1.setSlot_slot_self n (.running rest)
    refine ⟨fun hp => ?_, fun hp => ?_⟩
    · have hend := State.beginEnding_ended hrun rfl rfl hp
      rw [State.setSlot_setSlot] at hend
      have hslot : (s1.endedWith n rest .cancelled).slot n = .ended rest := State.endedWith_slot ..
      have hwork := jobCancelWork_undecided hn hj ho ((congrArg (State.beginEnding · n) hcancelled).trans hend)
      rw [show State.post _ _ = s1.endedWith n rest .cancelled from rfl, hslot, State.cancelProgress_ended hslot rfl] at hwork
      exact exec_answered (c := .jobCancel) rfl hw hwork (by simp [hcu])
    · have hend := State.beginEnding_pin hrun rfl rfl hp
      have hslot : ((s1.setSlot n (.running rest)).setPt (s1.pt.present (.pin n))).slot n = .running rest := hrun
      have hneeds : (((s1.setSlot n (.running rest)).setPt (s1.pt.present (.pin n))).slot n).needsPin = true :=
        (State.needsPin_eq hslot).trans (by simp [rest, Option.isSome_iff_ne_none.mpr hp])
      have hwork := jobCancelWork_undecided hn hj ho ((congrArg (State.beginEnding · n) hcancelled).trans hend)
      rw [State.setSlot_pt, hneeds, State.cancelProgress_unended (by simp [hslot])] at hwork
      exact exec_progress (c := .jobCancel) rfl hw hwork (by simp [hcu])

/-! ### REFILL_CLAIM (R68, R139) -/

section
variable {s : State} {n : Fin 4} {j : Job} (hj : s.slot n = .running j) (ho : ∀ m, m ≠ n → (s.slot m).stepping = false)
include hj ho

theorem State.stepping?_running (hs : j.step ≠ .none) : s.je.stepping? = some n :=
  JobEngine.stepping?_eq (show (s.slot n).stepping = true by simpa [hj, Slot.stepping] using hs) ho

theorem execRefillClaim_waits {first last : Nat} (hsp : j.spec = .refill first last) (hs : j.step = .waiting)
    (h : s.ptTakes (.refill n) = false) : execRefillClaim s = .next s := by
  rw [execRefillClaim, State.stepping?_running hj ho (by simp [hs])]
  simp only [hj, hsp, hs, h]
  simp

theorem execRefillClaim_made {first last : Nat} (hsp : j.spec = .refill first last) (hw : s.working = true)
    (h : j.step = .taken ∨ (j.step = .waiting ∧ s.ptTakes (.refill n) = true)) : execRefillClaim s =
      .next ((s.setPt ((s.pt.withdraw (.refill n)).refill j first last).1).finishStep n
        ((s.pt.withdraw (.refill n)).refill j first last).2) := by
  have hs : j.step ≠ .none := by rcases h with h | ⟨h, -⟩ <;> simp [h]
  have hgo : (s.working && (j.step == .taken || s.ptTakes (.refill n))) = true := by
    rcases h with h | ⟨-, h⟩ <;> simp [hw, h]
  rw [execRefillClaim, State.stepping?_running hj ho hs]
  simp only [hj, hsp, hgo, if_true]

end

section
variable {pt : PathTable} {j : Job} {first last i : Nat} (hi : refillId first j.cursor = i)
include hi

theorem PathTable.refill_free (h : pt.set? i = none) : pt.refill j first last =
    (pt, if i = last then Job.reachEnd { j with cursor := some (.set i) } else { j with cursor := some (.set i) }) := by
  simp only [PathTable.refill, hi, h]

theorem PathTable.refill_active {p : PathSet} (h : pt.set? i = some p) : pt.refill j first last =
    (pt.updSet i (·.fill),
      if i = last then (j.visit (.set i) true (0 < bucketsChanged p.map (fillMap p.members))).reachEnd
      else j.visit (.set i) true (0 < bucketsChanged p.map (fillMap p.members))) := by
  simp only [PathTable.refill, hi, h]

end

theorem bucketsChanged_pos_iff {old new : List (Option Nat)} (h : old.length = new.length) :
    0 < bucketsChanged old new ↔ old ≠ new := by
  induction old generalizing new with
  | nil =>
    obtain rfl := List.length_eq_zero_iff.mp h.symm
    simp [bucketsChanged]
  | cons x xs ih =>
    cases new with
    | nil => cases h
    | cons y ys =>
      have htail : 0 < (xs.zip ys).countP (fun x => x.1 != x.2) ↔ xs ≠ ys := ih (by simpa using h)
      by_cases hxy : x = y
      · simp [bucketsChanged, hxy, htail]
      · simp [bucketsChanged, hxy]

/-- Settles O46. -/
theorem refillSteps : Obligations.RefillSteps := by
  intro s n j first last i hr hs hj ho hsp
  refine ⟨execRefillClaim_waits hj ho hsp, fun h hcur => ?_⟩
  intro s1 ended
  have hi : refillId first j.cursor = i := by
    rcases hcur with ⟨hc, rfl⟩ | ⟨c, hc, rfl⟩ <;> rw [hc] <;> rfl
  have hmade : exec .refillClaim s = _ := execRefillClaim_made hj ho hsp (State.working_eq_true hr hs) h
  rw [hmade]
  refine ⟨fun hfree => ?_, fun p hp hlen => ?_⟩
  · rw [PathTable.refill_free (pt := s.pt.withdraw (.refill n)) hi hfree]
    rfl
  · rw [PathTable.refill_active (pt := s.pt.withdraw (.refill n)) hi hp]
    have hacted : (0 < bucketsChanged p.map (fillMap p.members)) ↔ p.map ≠ fillMap p.members :=
      bucketsChanged_pos_iff (hlen.trans (fillMap_length _).symm)
    by_cases hmap : p.map = fillMap p.members
    · have hnot := mt hacted.mp (not_not.mpr hmap)
      simp only [Job.visit, hnot, decide_false, Bool.false_eq_true, if_false, if_true]
      rw [if_pos hmap]
      rfl
    · have hyes := hacted.mpr hmap
      simp only [Job.visit, hyes, decide_true, if_true]
      rw [if_neg hmap]
      rfl

/-! ### STEP_CLAIM (R17, R133 to R138) -/

section
variable {f : Filter} {r : Route}

theorem absentOr_iff {α : Type} {x : Option α} {P : α → Bool} : absentOr x P = true ↔ ∀ a, x = some a → P a = true := by
  cases x <;> simp [absentOr]

theorem Filter.inSpan_iff : f.inSpan r = true ↔ ∀ d, f.domain = some d → r.ident.domain = d := by
  unfold Filter.inSpan
  split <;> simp_all

theorem Filter.accepts_iff : f.accepts r = true ↔ (∀ d, f.domain = some d → r.ident.domain = d) ∧
    (∀ x, f.family = some x → r.family = x) ∧
    (∀ k l, f.cover = some (k, l) → l ≤ r.ident.len ∧ k.family = r.family ∧ ∀ i, i < l → k.bit i = r.ident.key.bit i) ∧
    (∀ t, f.target = some t → r.target = t) ∧ ∀ c, f.cls = some c → r.cls = c := by
  simp only [Filter.accepts, Bool.and_eq_true, absentOr_iff, beq_iff_eq, decide_eq_true_eq, Key.agrees_iff, Prod.forall, and_assoc]
  exact Iff.rfl

end

/-- A route that the action acts on, in the obligation's words (R136). -/
theorem Action.acts_iff {a : Action} {r : Route} : a.acts r = true ↔ a = .retire ∨ (∃ t, a = .repoint t ∧ r.target ≠ t) ∨
    (a = .sweep ∧ r.cls = .learned) ∨ (a = .clearMarks ∧ (r.mark = true ∨ 0 < r.hits)) := by
  cases a <;> simp [Action.acts]

theorem Action.acts_refers_iff {a : Action} {r : Route} : (a.acts r = true ∧ a.refers r = true) ↔
    ((a = .retire ∨ (a = .sweep ∧ r.cls = .learned ∧ r.mark = false)) ∧ r.target.counted = true) ∨
      ∃ t, a = .repoint t ∧ r.target ≠ t := by
  cases a <;> simp [Action.acts, Action.refers, and_assoc]

section
variable {s : State} {j : Job} {f : Filter} {a : Action}

theorem RouteStore.surveyed_eq_some {rs : RouteStore} {r : Route} : rs.surveyed f j.cursor = some r ↔
    (∃ i, j.cursor = some (.route i) ∧ rs.successor i = some r ∧ f.inSpan r = true) ∨
      ((∀ i, j.cursor ≠ some (.route i)) ∧ ∃ before after, rs.routes = before ++ r :: after ∧ f.inSpan r = true ∧
        ∀ x ∈ before, ¬ f.inSpan x = true) := by
  have hfirst : rs.routes.find? f.inSpan = some r ↔ ∃ before after, rs.routes = before ++ r :: after ∧ f.inSpan r = true ∧
      ∀ x ∈ before, ¬ f.inSpan x = true := by
    rw [List.find?_eq_some_iff_append]
    constructor
    · rintro ⟨hr, before, after, hl, hb⟩
      exact ⟨before, after, hl, hr, fun x hx => by simpa using hb x hx⟩
    · rintro ⟨before, after, hl, hr, hb⟩
      exact ⟨hr, before, after, hl, fun x hx => by simpa using hb x hx⟩
  rcases hc : j.cursor with _ | i | i
  · simpa [RouteStore.surveyed] using hfirst
  · simp [RouteStore.surveyed, Option.filter_eq_some_iff]
  · simpa [RouteStore.surveyed] using hfirst

theorem RouteStore.surveyed_congr {rs rs' : RouteStore} (h : rs'.routes = rs.routes) (c : Option Cursor) :
    rs'.surveyed f c = rs.surveyed f c := by
  rcases c with _ | i | i <;> simp only [RouteStore.surveyed, RouteStore.successor, h]

theorem State.survey_end (h : s.rs.surveyed f j.cursor = none) : s.survey j f a = (s, j.reachEnd) := by
  simp only [State.survey, h]

theorem State.survey_route {r : Route} (h : s.rs.surveyed f j.cursor = some r) : s.survey j f a =
    (if f.accepts r && a.acts r then s.applyAction a r else s,
      j.visit (.route r.ident) (f.accepts r) (f.accepts r && a.acts r)) := by
  simp only [State.survey, h]

/-- The state in which a step acts, with the reference claim taken of one that refers (R16, R36). -/
def State.stepBase (s : State) (refers : Bool) : State :=
  if refers then (s.setRs { s.rs with fairness := 0 }).setPt (s.pt.withdraw .reference) else s.setRs { s.rs with fairness := 0 }

theorem State.stepBase_surveyed (refers : Bool) (c : Option Cursor) :
    (s.stepBase refers).rs.surveyed f c = s.rs.surveyed f c := by
  refine RouteStore.surveyed_congr ?_ c
  cases refers <;> rfl

theorem State.makeStep_left (href : s.rs.stepRefers j f a = true) (hadm : s.ptAdmits .reference = false) :
    s.makeStep j f a = ((s.setRs { s.rs with fairness := 0 }).setPt (s.pt.offer .reference), none) := by
  simp only [State.makeStep, href, hadm, Bool.not_false, Bool.and_self, if_true]

theorem State.makeStep_made (h : s.rs.stepRefers j f a = true → s.ptAdmits .reference = true) : s.makeStep j f a =
    (((s.stepBase (s.rs.stepRefers j f a)).survey j f a).1, some ((s.stepBase (s.rs.stepRefers j f a)).survey j f a).2) := by
  have hgo : (s.rs.stepRefers j f a && !s.ptAdmits .reference) = false := by
    cases hr : s.rs.stepRefers j f a
    · rfl
    · simp [h hr]
  simp only [State.makeStep, hgo, Bool.false_eq_true, if_false]
  rfl

theorem State.makeStep_end (h : s.rs.surveyed f j.cursor = none) :
    s.makeStep j f a = (s.setRs { s.rs with fairness := 0 }, some j.reachEnd) := by
  have href : s.rs.stepRefers j f a = false := by simp [RouteStore.stepRefers, h]
  rw [State.makeStep_made (by simp [href]), State.survey_end (by rw [State.stepBase_surveyed, h]), href]
  rfl

section
variable {r : Route} (h : s.rs.surveyed f j.cursor = some r)
include h

theorem RouteStore.stepRefers_eq : s.rs.stepRefers j f a = (f.accepts r && a.acts r && a.refers r) := by
  simp [RouteStore.stepRefers, h]

/-- A route that the filter does not match, or on which the action does not act, is visited and left (R135, R136). -/
theorem State.makeStep_quiet (hq : (f.accepts r && a.acts r) = false) : s.makeStep j f a =
    (s.setRs { s.rs with fairness := 0 }, some (j.visit (.route r.ident) (f.accepts r) false)) := by
  have href : s.rs.stepRefers j f a = false := by rw [RouteStore.stepRefers_eq h, hq, Bool.false_and]
  rw [State.makeStep_made (by simp [href]), State.survey_route (by rw [State.stepBase_surveyed, h]), href, hq]
  rfl

/-- A matched route on which the action acts (R136, R138). -/
theorem State.makeStep_acts (hacc : f.accepts r = true) (hact : a.acts r = true) {b : Bool} (hb : a.refers r = b)
    (hadm : b = true → s.ptAdmits .reference = true) : s.makeStep j f a =
    ((s.stepBase b).applyAction a r, some (j.visit (.route r.ident) true true)) := by
  have href : s.rs.stepRefers j f a = b := by rw [RouteStore.stepRefers_eq h, hacc, hact, hb]; rfl
  rw [State.makeStep_made (by simpa [href] using hadm), State.survey_route (by rw [State.stepBase_surveyed, h]), href, hacc, hact]
  rfl

end

end

section
variable {s : State} {n : Fin 4} {j : Job} (hj : s.slot n = .running j) (ho : ∀ m, m ≠ n → (s.slot m).stepping = false)
  {f : Filter} {a : Action} (hsp : j.spec = .survey f a)
include hj ho hsp

theorem execStepClaim_waits (hs : j.step = .waiting) (h : s.stepGoesNext = false) : execStepClaim s = .next s := by
  rw [execStepClaim, State.stepping?_running hj ho (by simp [hs])]
  simp only [hj, hsp, hs, h]
  simp

theorem execStepClaim_made (hw : s.working = true) (h : j.step = .taken ∨ (j.step = .waiting ∧ s.stepGoesNext = true)) :
    execStepClaim s = .next ((s.makeStep j f a).1.stepMade n j (s.makeStep j f a).2) := by
  have hs : j.step ≠ .none := by rcases h with h | ⟨h, -⟩ <;> simp [h]
  have hgo : (s.working && (j.step == .taken || s.stepGoesNext)) = true := by
    rcases h with h | ⟨-, h⟩ <;> simp [hw, h]
  rw [execStepClaim, State.stepping?_running hj ho hs]
  simp only [hj, hsp, hgo, if_true]

end

/-- Settles O45. -/
theorem surveySteps : Obligations.SurveySteps := by
  intro s n j f a hr hs hj ho hsp
  have hw := State.working_eq_true hr hs
  refine ⟨fun hst hc => ?_, fun hst hc hfair => ?_, fun h => ?_, fun h => ?_⟩
  · exact execStepClaim_waits hj ho hsp hst (by simp [State.stepGoesNext, hc])
  · exact execStepClaim_waits hj ho hsp hst (by simp [State.stepGoesNext, hc, hfair, Config.fairnessLimit])
  · intro s1 s2 inSpan found agrees withdraws repoints refers after
    have hmade : exec .stepClaim s = .next ((s.makeStep j f a).1.stepMade n j (s.makeStep j f a).2) := by
      refine execStepClaim_made hj ho hsp hw (h.imp_right fun ⟨hst, hc, hfair⟩ => ⟨hst, ?_⟩)
      cases hcl : s.su.claimWaits
      · simp [State.stepGoesNext, hc, hcl]
      · simpa [State.stepGoesNext, hc, hcl, Config.fairnessLimit] using hfair hcl
    have hspan : ∀ r, f.inSpan r = true ↔ inSpan r := fun r => Filter.inSpan_iff
    have hacc : ∀ r, f.accepts r = true ↔ agrees r := fun r => Filter.accepts_iff
    have hsurveyed : j.cursor = none ∨ (∃ i, j.cursor = some (.route i)) → ∀ r, s.rs.surveyed f j.cursor = some r ↔ found r := by
      intro hcur r
      rw [RouteStore.surveyed_eq_some]
      simp only [hspan]
      refine or_congr Iff.rfl (and_congr_left fun _ => ⟨fun hno => hcur.resolve_right fun ⟨i, hi⟩ => hno i hi, fun hc i hi => ?_⟩)
      rw [hc] at hi
      cases hi
    rw [hmade]
    refine ⟨fun hcur hno => ?_, fun r hr => ?_⟩
    · have hnone : s.rs.surveyed f j.cursor = none :=
        Option.eq_none_iff_forall_ne_some.mpr fun r hr => hno r ((hsurveyed hcur r).mp hr)
      rw [State.makeStep_end hnone]
      rfl
    have hvisit : s.rs.surveyed f j.cursor = some r := (hsurveyed (hr.elim (fun ⟨i, hi, _⟩ => .inr ⟨i, hi⟩) fun h => .inl h.1) r).mpr hr
    have hrefers : s.rs.stepRefers j f a = true ↔ refers r := by
      rw [RouteStore.stepRefers_eq hvisit, Bool.and_assoc, Bool.and_eq_true, Bool.and_eq_true, hacc, Action.acts_refers_iff]
    refine ⟨fun href hadm => ?_, fun hnot => ?_, fun hag hadm => ?_⟩
    · rw [State.makeStep_left (hrefers.mpr href) hadm]
      rfl
    · have hacc' : f.accepts r = false := Bool.eq_false_iff.mpr fun h => hnot ((hacc r).mp h)
      rw [State.makeStep_quiet hvisit (by rw [hacc', Bool.false_and]), hacc']
      rfl
    have hyes : f.accepts r = true := (hacc r).mpr hag
    have hquiet : a.acts r = false → s.makeStep j f a = (s1, some (after r true false)) := fun h => by
      rw [State.makeStep_quiet hvisit (by rw [h, Bool.and_false]), hyes]
      rfl
    refine ⟨?_, fun hwd => ?_, ?_, ?_, ?_, ?_, ?_, ?_⟩
    · rintro rfl
      rw [hquiet rfl]
      rfl
    · have hact : a.acts r = true := Action.acts_iff.mpr (hwd.imp_right fun ⟨ha, hc, _⟩ => .inr (.inl ⟨ha, hc⟩))
      have href : a.refers r = r.target.counted := by
        rcases hwd with rfl | ⟨rfl, -, hmark⟩
        · rfl
        · simp [Action.refers, hmark]
      have hdone : ∀ u : State, u.applyAction a r = u.withdrawRoute r := fun u => by
        rcases hwd with rfl | ⟨rfl, -, hmark⟩
        · rfl
        · simp [State.applyAction, hmark]
      rw [State.makeStep_acts hvisit hyes hact href fun hc => hadm ⟨hag, .inl ⟨hwd, hc⟩⟩, hdone]
      rfl
    · intro ha
      rw [hquiet (by simp [ha, Action.acts])]
      rfl
    · rintro t rfl ht
      rw [State.makeStep_acts (b := true) hvisit hyes (by simpa [Action.acts] using ht) rfl fun _ => hadm ⟨hag, .inr ⟨t, rfl, ht⟩⟩]
      rfl
    · rintro rfl hcls
      rw [hquiet (by simp [Action.acts, hcls])]
      rfl
    · rintro rfl hcls hmark
      rw [State.makeStep_acts (b := false) hvisit hyes (by simp [Action.acts, hcls]) (by simp [Action.refers, hmark]) nofun]
      simp only [State.applyAction, hmark, if_true]
      rfl
    · rintro rfl hmark hhits
      rw [hquiet (by simp [Action.acts, hmark, hhits])]
      rfl
    · rintro rfl hact
      rw [State.makeStep_acts (b := false) hvisit hyes (by simpa [Action.acts] using hact) rfl nofun]
      rfl
  · refine (execStepClaim_made hj ho hsp hw (.inl h)).trans (congrArg _ ?_)
    rcases s.makeStep j f a with ⟨u, _ | k⟩ <;> rfl

end Sys2Proof.Machine
end

section
/-! PROOFS. RESTART, the resets and the clearing (sections 9.9 and 9.10), and the step on an empty queue. -/

namespace Sys2Proof.Machine

-- The proofs are elaborated one after another: each thread counts against the memory in which the text is checked.
set_option Elab.async false

/-! ### RESTART's parts (R112, R128, R149, R182) -/

/-- A report that no lane is credited for any more. -/
def PortClaim.uncredited : PortClaim → PortClaim
  | .report r => .report { r with credit := false }
  | c => c

/-- RESTART's part in the lanes leaves every report uncredited. -/
theorem PortClaim.orphan_fours (c : PortClaim) : fours.foldl (fun c n => c.orphan n) c = c.uncredited := by
  cases c with
  | expiry p | command | read => rfl
  | report r =>
    obtain ⟨n, p, st, credit⟩ := r
    fin_cases n <;> rfl

theorem PortMonitor.orphan_foldl (ns : List (Fin 4)) (m : PortMonitor) : ns.foldl PortMonitor.orphan m =
    { m with waiting := m.waiting.map (·.map fun c => ns.foldl (fun c n => c.orphan n) c) } := by
  induction ns generalizing m with
  | nil => simp
  | cons n ns ih =>
    rw [List.foldl_cons, ih]
    simp [PortMonitor.orphan, Function.comp_def]

theorem PortMonitor.orphan_fours (m : PortMonitor) :
    fours.foldl PortMonitor.orphan m = { m with waiting := m.waiting.map (·.map PortClaim.uncredited) } := by
  rw [PortMonitor.orphan_foldl]
  simp only [PortClaim.orphan_fours]

theorem PortClaim.uncredited_eq_command {c : PortClaim} : c.uncredited = .command ↔ c = .command := by
  cases c <;> simp [PortClaim.uncredited]

/-- PMON takes RESTART's claim when no claim presented before it waits; the orphaned reports keep their places. -/
theorem PortMonitor.orphaned_admits (m : PortMonitor) : (fours.foldl PortMonitor.orphan m).admits .command = true ↔
    m.waiting = [] ∨ ∃ g rest, m.waiting = g :: rest ∧ .command ∈ g := by
  rw [PortMonitor.orphan_fours, PortMonitor.admits_iff]
  cases m.waiting with
  | nil => simp
  | cons g rest => simp [PortClaim.uncredited_eq_command]

theorem inLine_iff_flatten {α : Type} [DecidableEq α] {c : α} {l : ClaimLine α} : inLine c l = true ↔ c ∈ l.flatten := by
  rw [inLine_iff, List.mem_flatten]

theorem PortMonitor.orphaned_offer_flatten (m : PortMonitor) :
    ((fours.foldl PortMonitor.orphan m).offer .command).waiting.flatten = m.waiting.flatten.map PortClaim.uncredited ++
      if .command ∈ m.waiting.flatten.map PortClaim.uncredited then [] else [.command] := by
  rw [PortMonitor.orphan_fours, PortMonitor.offer, offerLine_flatten, ← List.map_flatten]
  by_cases h : PortClaim.command ∈ m.waiting.flatten.map PortClaim.uncredited
  · rw [if_pos h, if_pos (inLine_iff_flatten.mpr (by rwa [← List.map_flatten])), List.append_nil]
  · rw [if_neg h, if_neg (mt inLine_iff_flatten.mp (by rwa [← List.map_flatten]))]

/-! ### The holds of RESTART (R183) -/

section
variable {s : State}

theorem State.restarting_iff : s.restarting = true ↔ ∃ ws, s.cu = .busy ws .restartLeft ∨ s.cu = .busy ws .restartPorts ∨
    s.cu = .busy ws .restarting := by
  unfold State.restarting
  split
  all_goals simp_all

theorem State.tablesHeld_iff : s.tablesHeld = true ↔ ∃ ws, s.cu = .busy ws .restartPorts ∨ s.cu = .busy ws .restarting := by
  unfold State.tablesHeld
  split
  all_goals simp_all

theorem State.portsHeld_iff : s.portsHeld = true ↔ ∃ ws, s.cu = .busy ws .restarting := by
  unfold State.portsHeld
  split
  all_goals simp_all

theorem State.restarting_of_tablesHeld (h : s.tablesHeld = true) : s.restarting = true := by
  obtain ⟨ws, h⟩ := State.tablesHeld_iff.mp h
  exact State.restarting_iff.mpr ⟨ws, .inr h⟩

section
variable (h : s.restarting = true)
include h

theorem State.not_working : s.working = false := by simp [State.working, h]

theorem execGrant_restarting : execGrant s = .next s := by
  simp [execGrant, State.not_working h]

theorem execLookupClaim_restarting : execLookupClaim s = .next s := by
  unfold execLookupClaim
  split
  · simp [State.not_working h]
  · rfl

theorem execPinClaim_restarting (n : Fin 4) : execPinClaim n s = .next s := by
  unfold execPinClaim
  split
  · split
    · simp [State.not_working h]
    · rfl
  · rfl

theorem State.presentStep_restarting (together : Bool) : s.presentStep together = s := by
  simp [State.presentStep, State.not_working h]

theorem State.takeStep_restarting : s.takeStep = s := by
  unfold State.takeStep
  split
  · rfl
  · split
    · simp [State.not_working h]
    · rfl

theorem State.post_of_restarting (p : Posting) : s.post p = s := if_pos h

end

section
variable (h : s.tablesHeld = true)
include h

theorem State.not_serving : s.serving = false := by simp [State.serving, h]

theorem execResolutionClaim_held : execResolutionClaim s = .next s := by
  unfold execResolutionClaim
  split
  · simp [State.not_working (State.restarting_of_tablesHeld h)]
  · simp [State.not_serving h]

theorem execStepClaim_held : execStepClaim s = .next s := by
  unfold execStepClaim
  split
  · split
    · rfl
    · split
      · simp [State.not_serving h]
      · rfl
  · split
    · split
      · simp [State.not_working (State.restarting_of_tablesHeld h)]
      · rfl
    · rfl

theorem execRefillClaim_held : execRefillClaim s = .next s := by
  unfold execRefillClaim
  split
  · split
    · rfl
    · split
      · simp [State.not_serving h]
      · rfl
  · split
    · split
      · simp [State.not_working (State.restarting_of_tablesHeld h)]
      · rfl
    · rfl

theorem execVisitClaim_held (p : Fin 64) : execVisitClaim p s = .next s := by
  unfold execVisitClaim
  split
  · simp [State.not_serving h]
  · split
    · rfl
    · simp [State.not_serving h]

theorem State.takeVisit_held : s.takeVisit = s := by
  rcases s.takeVisit_cases with h' | ⟨p, cursor, -, -, hserving, -⟩
  · exact h'
  · rw [State.not_serving h] at hserving
    cases hserving

end

section
variable (h : s.portsHeld = true)
include h

theorem execReportTaken_held : execReportTaken s = .next s := by
  unfold execReportTaken
  split
  · rfl
  · simp [h]

theorem execPort_held {n : Fin 4} (hr : s.receives n = true) (hroom : (s.lane n).reportsPending < 32) (p : Fin 64)
    (st : ReportedState) : execPort n p st s = .next (s.updLane n fun l =>
      { l with held := l.held - 1, reportsPending := l.reportsPending + 1 }) := by
  have hlt : ¬ Config.creditLimit ≤ (s.lane n).reportsPending := Nat.not_le.mpr hroom
  simp only [execPort, hr, h, hlt, Bool.not_true, Bool.false_eq_true, if_false, if_true, State.updLane_updLane]
  rfl

end

end

/-! ### RESTART_COMPLETE, and what finishes while RESTART waits (R128, R149, R184) -/

section
variable {s : State} {ws : List Word}

theorem execRestartComplete_quiet (hr : s.dev.phase = .running) (hcu : s.cu = .busy ws .restarting) (hpt : s.pt.waiting = [])
    (hl : s.su.lookup = none) (hp : s.su.probe = none) (hj : ∀ n, (s.slot n).stepping = false) (hm : s.pmon.waiting = []) :
    execRestartComplete s = .next (s.setCu (.busy ws (.answered ⟨.ok, []⟩))) := by
  have hstep : s.je.stepping? = none := JobEngine.stepping?_eq_none hj
  rw [execRestartComplete, hcu]
  simp [s.running_iff.mpr hr, State.quiet, hpt, hl, hp, hstep, hm]

/-- The claim in progress of a job that RESTART has dropped is finished, and no other's. -/
theorem JobEngine.finishDropped_eq {je : JobEngine} {taken : Job → Bool} {before after : List Job} {j : Job}
    (hd : je.dropped = before ++ j :: after) (hj : taken j = true) (ho : ∀ x ∈ before ++ after, taken x = false) :
    je.finishDropped taken = { je with dropped := before ++ { j with step := .none } :: after } := by
  have hkeep : ∀ l : List Job, (∀ x ∈ l, taken x = false) → (l.map fun x => if taken x then { x with step := .none } else x) = l :=
    fun l hl => (List.map_congr_left fun x hx => if_neg (by simp [hl x hx])).trans (List.map_id l)
  have hb := hkeep before fun x hx => ho x (List.mem_append_left _ hx)
  have ha := hkeep after fun x hx => ho x (List.mem_append_right _ hx)
  simp only [JobEngine.finishDropped, hd, List.map_append, List.map_cons, hb, ha, hj, if_true]

end

theorem find?_dropped {l before after : List Job} {j : Job} {taken : Job → Bool} (hl : l = before ++ j :: after)
    (hj : taken j = true) (ho : ∀ x ∈ before ++ after, taken x = false) : l.find? taken = some j :=
  List.find?_eq_some_iff_append.mpr ⟨hj, before, after, hl, fun x hx => by simp [ho x (List.mem_append_left _ hx)]⟩

section
variable {s : State} {j : Job} (hno : s.je.stepping? = none)
include hno

theorem execStepClaim_dropped (hd : s.je.dropped.find? Job.surveyTaken = some j) {f : Filter} {a : Action}
    (hsp : j.spec = .survey f a) (hs : s.serving = true) :
    execStepClaim s = .next ((s.makeStep j f a).1.droppedMade (s.makeStep j f a).2) := by
  simp only [execStepClaim, hno, hd, hsp, hs, if_true]

theorem execRefillClaim_dropped (hd : s.je.dropped.find? Job.refillTaken = some j) {first last : Nat}
    (hsp : j.spec = .refill first last) (hs : s.serving = true) : execRefillClaim s =
      .next ((s.setPt (s.pt.refill j first last).1).setJe (s.je.finishDropped Job.refillTaken)) := by
  simp only [execRefillClaim, hno, hd, hsp, hs, if_true]

end

theorem State.uncommanded_dropClaims {s : State} (hpt : s.pt.waiting = []) (htaken : s.pt.taken = none)
    (hm : s.pmon.waiting = []) : s.dropClaims = s := by
  have hfinish : s.pt.finishCommand = s.pt := by simp [PathTable.finishCommand, PathTable.commandTaken, htaken]
  have hwithdraw : s.pt.withdraw .command = s.pt := by
    rw [PathTable.withdraw, hpt, show leaveLine PtClaim.command [] = [] from rfl, ← hpt]
  have hm' : s.pmon.withdraw .command = s.pmon := by
    rw [PortMonitor.withdraw, hm, show leaveLine PortClaim.command [] = [] from rfl, ← hm]
  rw [State.dropClaims, hwithdraw, hfinish, hm']
  rfl

/-- RESTART with its part in PMON made: the tables empty, and nothing of any block waits. -/
def State.restarted (s : State) : State := s.restartUnits.restartTables.restartPorts

theorem State.restarted_cu (s : State) : s.restarted.cu = s.cu := rfl

theorem restartWork_ports {s : State} (ps : List Word) (hfree : s.rsFree = true ∧ s.ptFree = true)
    (hm : s.restartUnits.restartTables.pmon.admits .command = false) : restartWork ps s =
      (s.restartUnits.restartTables.setPmon (s.restartUnits.restartTables.pmon.offer .command), .restartPorts) := by
  simp only [restartWork, State.restartUnits_rsFree, State.restartUnits_ptFree, hfree.1, hfree.2, hm, Bool.and_self, if_true,
    Bool.false_eq_true, if_false]

theorem restartWork_units {s : State} (ps : List Word) (hfree : ¬ (s.rsFree = true ∧ s.ptFree = true)) :
    restartWork ps s = (s.restartUnits, .restartLeft) := by
  simp only [restartWork, State.restartUnits_rsFree, State.restartUnits_ptFree, Bool.and_eq_true, hfree, if_false]

theorem Job.withdrawn_eq (j : Job) : j.withdrawn = if j.step = .waiting then { j with step := .none } else j :=
  if_congr beq_iff_eq rfl rfl

theorem State.restarted_withProgress {s : State} {ws : List Word} {p : Progress} (hcu : s.cu = .busy ws p) (q : Progress) :
    s.restarted.withProgress q = s.restarted.setCu (.busy ws q) := by
  rw [State.withProgress, State.restarted_cu, hcu]
  exact congrArg (State.setCu · _) (State.uncommanded_dropClaims rfl rfl rfl)

section
variable {s : State} {ps ws : List Word} {p : Progress} (hw : s.works 0x91 ps) (hcu : s.cu = .busy ws p)
include hw hcu

theorem exec_restart_made (hfree : s.rsFree = true ∧ s.ptFree = true)
    (hm : s.restartUnits.restartTables.pmon.admits .command = true) :
    exec .restart s = .next (s.restarted.setCu (.busy ws .restarting)) := by
  rw [← State.restarted_withProgress hcu]
  refine exec_progress (c := .restart) rfl hw ?_ rfl
  simp only [hostWork, restartWork, State.restartUnits_rsFree, State.restartUnits_ptFree, hfree.1, hfree.2, hm, Bool.and_self,
    if_true]
  rfl

/-- RESTART waits, with what its row has made so far. -/
theorem exec_restart_left {X : State} {q : Progress} (hb : restartWork ps s = (X, q)) (hq : q.waits = true) :
    exec .restart s = .next (X.setCu (.busy ws q)) := by
  obtain ⟨w, p', hcu', he⟩ := runCommand_left (body := restartWork) hw hb hq
  obtain ⟨rfl, -⟩ := CommandUnit.busy.inj (hcu.symm.trans hcu')
  rw [exec_host (c := .restart) rfl, ← he]
  rfl

end

theorem execRestartComplete_restarted {s : State} {ws : List Word} (hr : s.dev.phase = .running) :
    exec .restartComplete (s.restarted.setCu (.busy ws .restarting)) =
      .next ((s.restarted.setCu (.busy ws .restarting)).answered .ok []) := by
  rw [exec, execRestartComplete_quiet (s := s.restarted.setCu (.busy ws .restarting)) hr rfl rfl rfl rfl (fun n => by fin_cases n <;> rfl) rfl]
  exact congrArg (fun t => Host.Outcome.next (State.setCu t _)) (State.uncommanded_dropClaims rfl rfl rfl).symm

/-- No timer runs after RESTART's part in PMON (R89). -/
theorem execHoldDownExpiry_restarted (s : State) (x : CommandUnit) (p : Fin 64) :
    execHoldDownExpiry p (s.restarted.setCu x) = .next (s.restarted.setCu x) := by
  have htimer : ((s.restarted.setCu x).port p).timer = none := by
    simp [State.port, State.restarted, State.restartPorts, PortMonitor.restart, State.setCu, Port.reset]
  rw [execHoldDownExpiry, htimer]

/-- Settles O50. -/
theorem restartEmptiesTables : Obligations.RestartEmptiesTables := by
  refine ⟨fun s ps hw => ?_, fun s ws hr hcu hpt hl hp hj hm => execRestartComplete_quiet hr hcu hpt hl hp hj hm, fun s ws before j after hr hcu hno hd hj ho => ?_,
    fun s ws hr hcu hl htaken => ?_, fun s => ⟨State.restarting_iff, fun h => ?_⟩, fun s => ⟨State.tablesHeld_iff, fun h => ?_⟩,
    fun s => ⟨State.portsHeld_iff, fun h => ?_⟩⟩
  · intro units tables orphans free next
    have horphans : orphans = s.pmon.waiting.flatten.map PortClaim.uncredited :=
      List.map_congr_left fun c _ => by cases c <;> rfl
    have hnext : s.restartUnits.restartTables.pmon.admits .command = true ↔ next := s.pmon.orphaned_admits
    have hwaiting : ∃ ws p, s.cu = .busy ws p := by
      obtain ⟨⟨-, w, p, -, hcu, -⟩, -⟩ := hw
      exact ⟨_, p, hcu⟩
    refine ⟨fun hfree hn => ?_, fun ws p hcu => ⟨fun hfree hn => ?_, fun hfree => ?_⟩⟩
    · intro t
      obtain ⟨ws, p, hcu⟩ := hwaiting
      have ht : t = s.restarted.setCu (.busy ws .restarting) := State.restarted_withProgress hcu .restarting
      rw [ht]
      exact ⟨exec_restart_made hw hcu hfree (hnext.mpr hn), execRestartComplete_restarted hw.1.1,
        execHoldDownExpiry_restarted s _⟩
    · refine ⟨((fours.foldl PortMonitor.orphan s.pmon).offer .command).waiting, ?_, ?_⟩
      · rw [horphans]
        exact s.pmon.orphaned_offer_flatten
      · exact exec_restart_left hw hcu (restartWork_ports ps hfree (Bool.eq_false_iff.mpr (mt hnext.mp hn))) rfl
    · refine ⟨(fours.foldl PortMonitor.orphan s.pmon).waiting, keepLine (!·.ofUnits) s.pt.waiting, ?_, ?_, ?_⟩
      · rw [horphans, PortMonitor.orphan_fours, List.map_flatten]
      · rw [keepLine_flatten]
        exact List.filter_congr fun c _ => by cases c <;> rfl
      · simp only [← Job.withdrawn_eq]
        exact exec_restart_left hw hcu (restartWork_units ps hfree) rfl
  · have hserving : s.serving = true :=
      State.serving_eq_true hr (Bool.eq_false_iff.mpr fun h => by simpa [hcu] using State.tablesHeld_iff.mp h)
    have hnone : s.je.stepping? = none := JobEngine.stepping?_eq_none hno
    intro finished
    have hothers : ∀ taken : Job → Bool, (∀ x : Job, taken x = true → x.step = .taken) → ∀ x ∈ before ++ after, taken x = false :=
      fun taken hstep x hx => Bool.eq_false_iff.mpr fun h => ho x hx (hstep x h)
    have hsurvey := hothers Job.surveyTaken fun x h => (x.surveyTaken_iff.mp h).1
    have hrefill := hothers Job.refillTaken fun x h => (x.refillTaken_iff.mp h).1
    refine ⟨fun f a hsp => ?_, fun first last hsp => ?_⟩
    · have htaken : j.surveyTaken = true := j.surveyTaken_iff.mpr ⟨hj, f, a, hsp⟩
      rw [exec, execStepClaim_dropped hnone (find?_dropped hd htaken hsurvey) hsp hserving]
      have hje : (s.makeStep j f a).1.je = s.je := s.makeStep_je j f a
      rcases hmade : s.makeStep j f a with ⟨u, _ | k⟩
      · rfl
      · rw [hmade] at hje
        simp only [State.droppedMade, finished]
        rw [JobEngine.finishDropped_eq (hje ▸ hd) htaken hsurvey]
    · have htaken : j.refillTaken = true := j.refillTaken_iff.mpr ⟨hj, first, last, hsp⟩
      rw [exec, execRefillClaim_dropped hnone (find?_dropped hd htaken hrefill) hsp hserving,
        JobEngine.finishDropped_eq hd htaken hrefill]
      rfl
  · have hserving : s.serving = true :=
      State.serving_eq_true hr (Bool.eq_false_iff.mpr fun h => by simpa [hcu] using State.tablesHeld_iff.mp h)
    simp only [exec, execResolutionClaim, hl, hserving, htaken, beq_self_eq_true, Bool.and_self, Bool.true_and]
    rfl
  · exact ⟨execGrant_restarting h, execLookupClaim_restarting h, execPinClaim_restarting h, State.presentStep_restarting h,
      State.takeStep_restarting h, State.post_of_restarting h⟩
  · exact ⟨execResolutionClaim_held h, execStepClaim_held h, execRefillClaim_held h, execVisitClaim_held h, State.takeVisit_held h⟩
  · exact ⟨execReportTaken_held h, fun n p st hr hl hroom => execPort_held h (State.receives_iff.mpr ⟨hr, hl⟩) hroom p st⟩

/-! ### The resets and the clearing (R185, R186, R200) -/

section
variable {s : State}

theorem State.startClearing_starts (hh : s.dev.phase = .held) (hr : s.dev.resetLow = false) (hs : s.dev.supplied = true) :
    s.startClearing = (s.setMp { s.mp with lost := false }).setDev { s.dev with phase := .clearing } :=
  if_pos (by simp [hh, hr, hs])

theorem State.startClearing_waits (h : s.dev.resetLow = true ∨ s.dev.supplied = false) : s.startClearing = s :=
  if_neg (by rcases h with h | h <;> simp [h])

end

/-- Settles O51. -/
theorem resetsAndClearing : Obligations.ResetsAndClearing := by
  intro s
  refine ⟨fun ns h => ?_, fun ns h => ?_, rfl, rfl, rfl, ⟨rfl, rfl, rfl, rfl, rfl, rfl, rfl, fun n => ?_, fun n => ?_⟩,
    fun hh h1 h2 h3 => ?_, fun hh h => ?_, fun hh h => ?_, fun hh h => ?_, fun h => ?_, fun h => ?_⟩
  · exact congrArg _ (if_neg (Nat.not_le.mpr h))
  · exact congrArg _ (if_pos h)
  · simp [State.abandonWork, State.lane]
  · fin_cases n <;> rfl
  · exact congrArg _ (State.startClearing_starts (s := s.setDev { s.dev with resetLow := false }) hh rfl
      (by simp [Device.supplied, h1, h2, h3]))
  · exact congrArg _ (State.startClearing_waits (s := s.setDev { s.dev with resetLow := false }) (.inr h))
  · exact congrArg _ (State.startClearing_starts
      (s := s.setDev { s.dev with vddValid := true, vddioValid := true, vddlValid := true }) hh h rfl)
  · exact congrArg _ (State.startClearing_waits
      (s := s.setDev { s.dev with vddValid := true, vddioValid := true, vddlValid := true }) (.inl h))
  · exact congrArg _ (if_pos (by simp [h]))
  · exact congrArg _ (if_neg (by simp [h]))

/-! ### The step on an empty queue (R16, R17, R36, R84, R140) -/

section
variable {s : State} {n : Fin 4} {j : Job}

theorem State.takeStep_idle (h : ∀ n j, s.slot n = .running j → j.step ≠ .waiting) : s.takeStep = s := by
  unfold State.takeStep
  split
  · rfl
  · rename_i n _
    split
    · rename_i j hj
      simp [h n j hj]
    · rfl

section
variable (hw : s.working = true) (hj : s.slot n = .running j) (hs : j.step = .waiting)
  (ho : ∀ m, m ≠ n → (s.slot m).stepping = false)
include hw hj hs ho

theorem State.takeStep_survey {f : Filter} {a : Action} (hsp : j.spec = .survey f a) : s.takeStep =
    if s.stepGoesNext then (s.setRs { s.rs with fairness := 0 }).setSlot n (.running { j with step := .taken }) else s := by
  rw [State.takeStep, State.stepping?_running hj ho (by simp [hs])]
  simp only [hj, hw, hs, hsp, beq_self_eq_true, Bool.and_self, if_true]

theorem State.takeStep_refill {x y : Nat} (hsp : j.spec = .refill x y) : s.takeStep =
    if s.ptTakes (.refill n) then (s.setPt (s.pt.withdraw (.refill n))).setSlot n (.running { j with step := .taken }) else s := by
  rw [State.takeStep, State.stepping?_running hj ho (by simp [hs])]
  simp only [hj, hw, hs, hsp, beq_self_eq_true, Bool.and_self, if_true]

end

theorem State.stepGoesNext_iff :
    s.stepGoesNext = true ↔ ¬ (s.commandAtRouteStore = true ∨ (s.su.claimWaits = true ∧ s.rs.fairness < 16)) := by
  cases hc : s.su.claimWaits <;> simp [State.stepGoesNext, Config.fairnessLimit, hc]

/-- The port of a visit claim. -/
def PtClaim.visit? : PtClaim → Option (Fin 64)
  | .visit p => some p
  | _ => none

theorem PathTable.nextVisit?_eq (pt : PathTable) : pt.nextVisit? = (pt.waiting.headD []).findSome? PtClaim.visit? :=
  congrArg (fun f => (pt.waiting.headD []).findSome? f) (funext fun c => by cases c <;> rfl)

theorem PtClaim.visit?_none {g : List PtClaim} (h : ∀ p, .visit p ∉ g) : g.findSome? PtClaim.visit? = none :=
  List.findSome?_eq_none_iff.mpr fun c hc => by
    cases c with
    | visit p => exact absurd hc (h p)
    | refill | pin | resolution | command | reference => rfl

theorem State.takeVisit_none (h : ∀ g rest p, s.pt.waiting = g :: rest → .visit p ∉ g) : s.takeVisit = s := by
  have hnone : s.pt.nextVisit? = none := by
    rw [PathTable.nextVisit?_eq]
    cases hq : s.pt.waiting with
    | nil => rfl
    | cons g rest => exact PtClaim.visit?_none fun p => h g rest p hq
  rw [State.takeVisit, hnone]

theorem State.takeVisit_blocked (h : s.dev.phase ≠ .running ∨ s.tablesHeld = true ∨ s.ptFree = false) : s.takeVisit = s := by
  rcases s.takeVisit_cases with h' | ⟨p, cursor, -, -, hserving, hfree, -⟩
  · exact h'
  · rcases h with h | h | h
    · simp [State.serving, State.running, h] at hserving
    · rw [State.not_serving h] at hserving
      cases hserving
    · rw [h] at hfree
      cases hfree

theorem State.takeVisit_first {p : Fin 64} {cursor : Option (Nat × Nat)} {rest : ClaimLine PtClaim} {before after : List PtClaim}
    (hs : s.serving = true) (hfree : s.ptFree = true) (hq : s.pt.waiting = (before ++ .visit p :: after) :: rest)
    (hno : ∀ q, .visit q ∉ before) (hpass : (s.port p).pass = .running cursor) :
    s.takeVisit = s.setPt { s.pt.withdraw (.visit p) with taken := some (.visit ⟨p, cursor, false⟩) } := by
  have hnext : s.pt.nextVisit? = some p := by
    rw [PathTable.nextVisit?_eq, hq, List.headD_cons, List.findSome?_append, PtClaim.visit?_none hno]
    rfl
  simp only [State.takeVisit, hnext, hpass, hs, hfree, Bool.and_self, if_true]

/-- A read of the command's claim is made when the command can be worked on, PMON takes it, and one is left (R84). -/
theorem State.takeRead_none (h : ∀ code ps, s.works code ps → (portsRead code ps s.pt).drop s.pt.reads.length = []) :
    s.takeRead = s := by
  rcases s.takeRead_cases with h' | ⟨w, ps, p, q, rest, hcu, hp, hr, ha, -, hq, -⟩
  · exact h'
  · have hworks : s.works (commandCode w) ps := ⟨⟨s.running_iff.mp hr, w, p, rfl, hcu, Progress.unapplied_iff.mp hp⟩, ha⟩
    rw [h _ _ hworks] at hq
    cases hq

theorem State.takeRead_blocked (h : s.pmon.admits .read = false) : s.takeRead = s := by
  rcases s.takeRead_cases with h' | ⟨w, ps, p, q, rest, -, -, -, -, ha, -⟩
  · exact h'
  · rw [h] at ha
    cases ha

theorem State.takeRead_made {w : Word} {ps : List Word} {p : Progress} {q : Fin 64} {rest : List (Fin 64)}
    (hcu : s.cu = .busy (w :: ps) p) (hw : s.works (commandCode w) ps) (ha : s.pmon.admits .read = true)
    (hq : (portsRead (commandCode w) ps s.pt).drop s.pt.reads.length = q :: rest) :
    s.takeRead = ((s.setPt { s.pt.withdraw .command with
      taken := some (.command (s.pt.reads ++ [(s.port q).live])) }).setPmon (s.pmon.withdraw .read)).setCu
        (.busy (w :: ps) .waiting) := by
  obtain ⟨⟨hr, w', p', -, hcu', hp⟩, hadmits⟩ := hw
  obtain ⟨hws, rfl⟩ := CommandUnit.busy.inj (hcu.symm.trans hcu')
  have hp : p.unapplied = true := Progress.unapplied_iff.mpr hp
  simp only [State.takeRead, hcu, hp, s.running_iff.mpr hr, hadmits, ha, Bool.and_self, if_true, hq]
  rfl

end

/-- Settles O1. -/
theorem stepRunsTheFrontCommand : Obligations.StepRunsTheFrontCommand := by
  refine ⟨fun s c rest h => ?_, fun s h => ?_, fun s => ⟨State.takeStep_idle, fun n j hr hs hj hst ho => ?_⟩,
    fun s => ⟨State.takeVisit_blocked, State.takeVisit_none, fun p cursor g rest before after hr hheld hfree hq hg hno hpass => ?_⟩,
    fun s => ⟨State.takeRead_none, State.takeRead_blocked, fun w ps p q rest hcu hw ha hq => State.takeRead_made hcu hw ha hq⟩⟩
  · rw [step, h]
  · rw [step, h]
    rfl
  · have hw := State.working_eq_true hr hs
    intro taken before
    refine ⟨fun f a hsp => ?_, fun x y hsp => ?_⟩
    · rw [State.takeStep_survey hw hj hst ho hsp]
      exact ⟨fun h => if_neg fun hn => State.stepGoesNext_iff.mp hn h, fun h => if_pos (State.stepGoesNext_iff.mpr h)⟩
    · rw [State.takeStep_refill hw hj hst ho hsp]
      exact ⟨fun h => if_neg (by simp [h]), fun h => if_pos h⟩
  · exact State.takeVisit_first (State.serving_eq_true hr hheld) hfree (hg ▸ hq) hno hpass

end Sys2Proof.Machine
end

section
/-! PROOFS. References and what names the records (R31 to R34): the agreement of the Path Table's counts with a tally of what
names its records, and how each change of the records moves the two together. -/

namespace Sys2Proof.Machine

-- The proofs are elaborated one after another: each thread counts against the memory in which the text is checked.
set_option Elab.async false

/-! ### The tally -/

/-- What names the records of the Path Table, by kind: how many routes and pins each target, which sets name an exit as a
member's, and of how many sets a set is the backup. -/
@[ext] structure Uses where
  routes : Target → Nat
  pins : Target → Nat
  members : Nat → Nat → Prop
  backups : Nat → Nat

/-- Whatever is named is ACTIVE. -/
structure Uses.stand (u : Uses) (pt : PathTable) : Prop where
  routes : ∀ t, 0 < u.routes t → pt.stands t = true
  pins : ∀ t, 0 < u.pins t → pt.stands t = true
  members : ∀ k x, u.members k x → pt.stands (.exit x) = true
  backups : ∀ i, 0 < u.backups i → pt.stands (.pathSet i) = true

/-- The exit's counts and its user list are what the tally has of it. -/
structure Exit.agrees (e : Exit) (u : Uses) : Prop where
  routes : e.routeRefs = u.routes (.exit e.id)
  pins : e.pinRefs = u.pins (.exit e.id)
  count : e.memberRefs = e.users.length
  sorted : e.users.Pairwise (· < ·)
  users : ∀ k, k ∈ e.users ↔ u.members k e.id

/-- The path set's counts are what the tally has of it. -/
structure PathSet.agrees (p : PathSet) (u : Uses) : Prop where
  routes : p.routeRefs = u.routes (.pathSet p.id)
  pins : p.pinRefs = u.pins (.pathSet p.id)
  backups : p.backupRefs = u.backups p.id

/-- The counts of every ACTIVE record are what the tally has of it, and the tally has nothing of a FREE one. -/
structure PathTable.agrees (pt : PathTable) (u : Uses) : Prop where
  exits : ∀ e ∈ pt.exits, e.agrees u
  sets : ∀ p ∈ pt.sets, p.agrees u
  stand : u.stand pt

/-! ### What stands -/

section
variable {pt : PathTable} {i : Nat}

theorem PathTable.stands_exit : pt.stands (.exit i) = true ↔ ∃ e ∈ pt.exits, e.id = i := by
  simp [PathTable.stands, PathTable.exit?]

theorem PathTable.stands_pathSet : pt.stands (.pathSet i) = true ↔ ∃ p ∈ pt.sets, p.id = i := by
  simp [PathTable.stands, PathTable.set?]

theorem PathTable.updExit_stands {f : Exit → Exit} (hf : ∀ e, (f e).id = e.id) (t : Target) :
    (pt.updExit i f).stands t = pt.stands t := by
  cases t with
  | exit j => simp [PathTable.stands, PathTable.updExit_exit? _ _ _ hf]
  | pathSet | discard | control => rfl

theorem PathTable.updSet_stands {f : PathSet → PathSet} (hf : ∀ p, (f p).id = p.id) (t : Target) :
    (pt.updSet i f).stands t = pt.stands t := by
  cases t with
  | pathSet j => simp [PathTable.stands, PathTable.updSet_set? _ _ _ hf]
  | exit | discard | control => rfl

/-- The tally stands when nothing that it has is FREE any more than before. -/
theorem Uses.stand_mono {u : Uses} (h : u.stand pt) {pt' : PathTable} (hs : ∀ t, pt.stands t = true → pt'.stands t = true) :
    u.stand pt' where
  routes t ht := hs t (h.routes t ht)
  pins t ht := hs t (h.pins t ht)
  members k x hx := hs _ (h.members k x hx)
  backups j hj := hs _ (h.backups j hj)

theorem PathTable.stands_congr {pt' : PathTable} (he : pt'.exits = pt.exits) (hs : pt'.sets = pt.sets) (t : Target) :
    pt'.stands t = pt.stands t := by
  cases t <;> simp [PathTable.stands, PathTable.exit?, PathTable.set?, he, hs]

end

/-! ### Changes of one record -/

section
variable {pt : PathTable} {u : Uses} (h : pt.agrees u)
include h

theorem PathTable.agrees_congr {pt' : PathTable} (he : pt'.exits = pt.exits) (hs : pt'.sets = pt.sets) : pt'.agrees u where
  exits := he ▸ h.exits
  sets := hs ▸ h.sets
  stand := Uses.stand_mono h.stand fun t ht => (PathTable.stands_congr he hs t).trans ht

/-- A change of an exit that moves its counts with the tally. -/
theorem PathTable.updExit_agrees {u' : Uses} {i : Nat} {f : Exit → Exit} (hf : ∀ e, (f e).id = e.id) (hu : u'.stand pt)
    (hsame : ∀ e : Exit, e.id ≠ i → e.agrees u → e.agrees u') (hchanged : ∀ e : Exit, e.id = i → e.agrees u → (f e).agrees u')
    (hsets : ∀ p : PathSet, p.agrees u → p.agrees u') : (pt.updExit i f).agrees u' where
  exits := List.forall_mem_map.mpr fun e he => by
    by_cases hi : e.id = i
    · simpa [hi] using hchanged e hi (h.exits e he)
    · simpa [hi] using hsame e hi (h.exits e he)
  sets p hp := hsets p (h.sets p hp)
  stand := Uses.stand_mono hu fun t ht => (PathTable.updExit_stands hf t).trans ht

/-- A change of a path set that moves its counts with the tally. -/
theorem PathTable.updSet_agrees {u' : Uses} {i : Nat} {f : PathSet → PathSet} (hf : ∀ p, (f p).id = p.id) (hu : u'.stand pt)
    (hsame : ∀ p : PathSet, p.id ≠ i → p.agrees u → p.agrees u')
    (hchanged : ∀ p : PathSet, p.id = i → p.agrees u → (f p).agrees u') (hexits : ∀ e : Exit, e.agrees u → e.agrees u') :
    (pt.updSet i f).agrees u' where
  exits e he := hexits e (h.exits e he)
  sets := List.forall_mem_map.mpr fun p hp => by
    by_cases hi : p.id = i
    · simpa [hi] using hchanged p hi (h.sets p hp)
    · simpa [hi] using hsame p hi (h.sets p hp)
  stand := Uses.stand_mono hu fun t ht => (PathTable.updSet_stands hf t).trans ht

/-- A change of an exit's other fields. -/
theorem PathTable.updExit_agrees_same (i : Nat) {f : Exit → Exit} (hf : ∀ e, (f e).id = e.id ∧ (f e).routeRefs = e.routeRefs ∧
    (f e).pinRefs = e.pinRefs ∧ (f e).memberRefs = e.memberRefs ∧ (f e).users = e.users) : (pt.updExit i f).agrees u :=
  PathTable.updExit_agrees h (fun e => (hf e).1) h.stand (fun _ _ he => he)
    (fun e _ he => by
      obtain ⟨hid, hr, hp, hm, hu⟩ := hf e
      constructor
      · rw [hr, hid, he.routes]
      · rw [hp, hid, he.pins]
      · rw [hm, hu, he.count]
      · rw [hu]
        exact he.sorted
      · rw [hu, hid]
        exact he.users)
    fun _ hp => hp

/-- A change of a path set's other fields. -/
theorem PathTable.updSet_agrees_same (i : Nat) {f : PathSet → PathSet} (hf : ∀ p, (f p).id = p.id ∧ (f p).routeRefs = p.routeRefs ∧
    (f p).pinRefs = p.pinRefs ∧ (f p).backupRefs = p.backupRefs) : (pt.updSet i f).agrees u :=
  PathTable.updSet_agrees h (fun p => (hf p).1) h.stand (fun _ _ hp => hp)
    (fun p _ hp => by
      obtain ⟨hid, hr, hn, hb⟩ := hf p
      exact ⟨by rw [hr, hid, hp.routes], by rw [hn, hid, hp.pins], by rw [hb, hid, hp.backups]⟩)
    fun _ he => he

end

/-! ### Takes and releases (R20, R32, R34) -/

/-- The number of routes to a target, or of pins on one, changes. -/
def Uses.countRoute (u : Uses) (f : Nat → Nat) (t : Target) : Uses := { u with routes := Function.update u.routes t (f (u.routes t)) }
def Uses.countPin (u : Uses) (f : Nat → Nat) (t : Target) : Uses := { u with pins := Function.update u.pins t (f (u.pins t)) }

/-- The number of sets whose backup a set is changes. -/
def Uses.countBackup (u : Uses) (f : Nat → Nat) (b : Nat) : Uses := { u with backups := Function.update u.backups b (f (u.backups b)) }

/-- A set comes to name exits, or names them no more. -/
def Uses.join (u : Uses) (set : Nat) (xs : List Nat) : Uses := { u with members := fun k y => u.members k y ∨ (k = set ∧ y ∈ xs) }
def Uses.leave (u : Uses) (set : Nat) (xs : List Nat) : Uses := { u with members := fun k y => u.members k y ∧ ¬ (k = set ∧ y ∈ xs) }

theorem pos_update {α : Type} [DecidableEq α] {g : α → Nat} {a b : α} {n : Nat} {P : α → Prop} (hg : ∀ a, 0 < g a → P a)
    (ha : 0 < n → P a) (h : 0 < Function.update g a n b) : P b := by
  by_cases hb : b = a
  · subst hb
    exact ha (by simpa using h)
  · exact hg b (by simpa [hb] using h)

section
variable {pt : PathTable} {u : Uses} (h : pt.agrees u)
include h

theorem PathTable.countRoute_agrees {f : Nat → Nat} {t : Target} (hs : 0 < f (u.routes t) → pt.stands t = true) :
    (pt.countRoute f t).agrees (u.countRoute f t) := by
  have hstand : (u.countRoute f t).stand pt := { h.stand with routes := fun _ => pos_update h.stand.routes hs }
  cases t with
  | pathSet i =>
    refine PathTable.updSet_agrees h (fun _ => rfl) hstand (fun p hp hu => ⟨?_, hu.pins, hu.backups⟩)
      (fun p hp hu => ⟨?_, hu.pins, hu.backups⟩) fun e hu => ⟨?_, hu.pins, hu.count, hu.sorted, hu.users⟩
    · simpa [Uses.countRoute, hp] using hu.routes
    · subst hp
      simp [Uses.countRoute, hu.routes]
    · simpa [Uses.countRoute] using hu.routes
  | exit i =>
    refine PathTable.updExit_agrees h (fun _ => rfl) hstand (fun e he hu => ⟨?_, hu.pins, hu.count, hu.sorted, hu.users⟩)
      (fun e he hu => ⟨?_, hu.pins, hu.count, hu.sorted, hu.users⟩) fun p hu => ⟨?_, hu.pins, hu.backups⟩
    · simpa [Uses.countRoute, he] using hu.routes
    · subst he
      simp [Uses.countRoute, hu.routes]
    · simpa [Uses.countRoute] using hu.routes
  | discard | control =>
    exact ⟨fun e he => { h.exits e he with routes := by simpa [Uses.countRoute] using (h.exits e he).routes },
      fun p hp => { h.sets p hp with routes := by simpa [Uses.countRoute] using (h.sets p hp).routes }, hstand⟩

theorem PathTable.countPin_agrees {f : Nat → Nat} {t : Target} (hs : 0 < f (u.pins t) → pt.stands t = true) :
    (pt.countPin f t).agrees (u.countPin f t) := by
  have hstand : (u.countPin f t).stand pt := { h.stand with pins := fun _ => pos_update h.stand.pins hs }
  cases t with
  | pathSet i =>
    refine PathTable.updSet_agrees h (fun _ => rfl) hstand (fun p hp hu => ⟨hu.routes, ?_, hu.backups⟩)
      (fun p hp hu => ⟨hu.routes, ?_, hu.backups⟩) fun e hu => ⟨hu.routes, ?_, hu.count, hu.sorted, hu.users⟩
    · simpa [Uses.countPin, hp] using hu.pins
    · subst hp
      simp [Uses.countPin, hu.pins]
    · simpa [Uses.countPin] using hu.pins
  | exit i =>
    refine PathTable.updExit_agrees h (fun _ => rfl) hstand (fun e he hu => ⟨hu.routes, ?_, hu.count, hu.sorted, hu.users⟩)
      (fun e he hu => ⟨hu.routes, ?_, hu.count, hu.sorted, hu.users⟩) fun p hu => ⟨hu.routes, ?_, hu.backups⟩
    · simpa [Uses.countPin, he] using hu.pins
    · subst he
      simp [Uses.countPin, hu.pins]
    · simpa [Uses.countPin] using hu.pins
  | discard | control =>
    exact ⟨fun e he => { h.exits e he with pins := by simpa [Uses.countPin] using (h.exits e he).pins },
      fun p hp => { h.sets p hp with pins := by simpa [Uses.countPin] using (h.sets p hp).pins }, hstand⟩

/-- A backup reference taken or released. -/
theorem PathTable.updBackup_agrees {f : Nat → Nat} {b : Nat} (hs : 0 < f (u.backups b) → pt.stands (.pathSet b) = true) :
    (pt.updSet b fun p => { p with backupRefs := f p.backupRefs }).agrees (u.countBackup f b) := by
  have hstand : (u.countBackup f b).stand pt :=
    { h.stand with backups := fun _ => pos_update (P := fun i => pt.stands (.pathSet i) = true) h.stand.backups hs }
  refine PathTable.updSet_agrees h (fun _ => rfl) hstand (fun p hp hu => ⟨hu.routes, hu.pins, ?_⟩)
    (fun p hp hu => ⟨hu.routes, hu.pins, ?_⟩) fun e hu => ⟨hu.routes, hu.pins, hu.count, hu.sorted, hu.users⟩
  · simpa [Uses.countBackup, hp] using hu.backups
  · subst hp
    simp [Uses.countBackup, hu.backups]

theorem PathTable.join_agrees {set x : Nat} (hs : pt.stands (.exit x) = true) (hn : ¬ u.members set x) :
    (pt.join set x).agrees (u.join set [x]) := by
  have hstand : (u.join set [x]).stand pt := { h.stand with
    members := fun k y hy => hy.elim (h.stand.members k y) fun ⟨_, hx⟩ => List.mem_singleton.mp hx ▸ hs }
  refine PathTable.updExit_agrees h (fun _ => rfl) hstand (fun e he hu => { hu with users := fun k => ?_ })
    (fun e he hu => ⟨hu.routes, hu.pins, ?_, ?_, fun k => ?_⟩) fun p hu => ⟨hu.routes, hu.pins, hu.backups⟩
  · simp [Uses.join, he, hu.users]
  · rw [(insertBy_perm _ _ _).length_eq, List.length_cons, hu.count]
  · refine insertBy_sorted (rank := fun k => k) hu.sorted fun k hk hset => hn ?_
    rw [← hset, ← he]
    exact (hu.users k).mp hk
  · simp [mem_insertBy, Uses.join, he, hu.users, or_comm]

theorem PathTable.leave_agrees {set x : Nat} (hm : u.members set x) : (pt.leave set x).agrees (u.leave set [x]) := by
  have hstand : (u.leave set [x]).stand pt := { h.stand with members := fun k y hy => h.stand.members k y hy.1 }
  refine PathTable.updExit_agrees h (fun _ => rfl) hstand (fun e he hu => { hu with users := fun k => ?_ })
    (fun e he hu => ⟨hu.routes, hu.pins, ?_, hu.sorted.filter _, fun k => ?_⟩) fun p hu => ⟨hu.routes, hu.pins, hu.backups⟩
  · simp [Uses.leave, he, hu.users]
  · have hmem : set ∈ e.users := (hu.users set).mpr (he ▸ hm)
    have hnodup : e.users.Nodup := hu.sorted.imp Nat.ne_of_lt
    rw [← hnodup.erase_eq_filter, List.length_erase_of_mem hmem, hu.count]
  · simp [Uses.leave, he, hu.users]

end

/-! ### Records that come and go (R39, R42, R44, R46) -/

section
variable {pt : PathTable} {u : Uses} (h : pt.agrees u)
include h

/-- The tally has nothing of a FREE record. -/
theorem PathTable.agrees_free {t : Target} (ht : pt.stands t = false) : u.routes t = 0 ∧ u.pins t = 0 := by
  constructor
  · by_contra hn
    rw [h.stand.routes t (Nat.pos_of_ne_zero hn)] at ht
    cases ht
  · by_contra hn
    rw [h.stand.pins t (Nat.pos_of_ne_zero hn)] at ht
    cases ht

/-- A record that nothing references may go. -/
theorem Uses.stand_without {pt' : PathTable} {gone : Target} (hs : ∀ t, t ≠ gone → pt.stands t = true → pt'.stands t = true)
    (hr : u.routes gone = 0) (hp : u.pins gone = 0) (hm : ∀ k x, u.members k x → .exit x ≠ gone)
    (hb : ∀ i, 0 < u.backups i → .pathSet i ≠ gone) : u.stand pt' where
  routes t ht := hs t (by rintro rfl; omega) (h.stand.routes t ht)
  pins t ht := hs t (by rintro rfl; omega) (h.stand.pins t ht)
  members k x hx := hs _ (hm k x hx) (h.stand.members k x hx)
  backups i hi := hs _ (hb i hi) (h.stand.backups i hi)

theorem PathTable.insertExit_agrees {e : Exit} (hfree : pt.exit? e.id = none) (hr : e.routeRefs = 0) (hp : e.pinRefs = 0)
    (hm : e.memberRefs = 0) (hu : e.users = []) : ({ pt with exits := insertBy Exit.id e pt.exits } : PathTable).agrees u := by
  have hstands : pt.stands (.exit e.id) = false := by simp [PathTable.stands, hfree]
  obtain ⟨hnr, hnp⟩ := PathTable.agrees_free h hstands
  refine ⟨fun x hx => ?_, h.sets, Uses.stand_mono h.stand fun t ht => ?_⟩
  · rcases mem_insertBy.mp hx with rfl | hx
    · refine ⟨hr.trans hnr.symm, hp.trans hnp.symm, by rw [hm, hu]; rfl, by rw [hu]; exact .nil, fun k => ?_⟩
      rw [hu]
      refine iff_of_false List.not_mem_nil fun hk => ?_
      rw [h.stand.members k _ hk] at hstands
      cases hstands
    · exact h.exits x hx
  · cases t with
    | exit i =>
      obtain ⟨y, hy, hi⟩ := PathTable.stands_exit.mp ht
      exact PathTable.stands_exit.mpr ⟨y, mem_insertBy.mpr (.inr hy), hi⟩
    | pathSet | discard | control => exact ht

theorem PathTable.filterExits_agrees {e : Exit} {i : Nat} (he : pt.exit? i = some e) (hr : e.references = 0) :
    ({ pt with exits := pt.exits.filter (·.id != i) } : PathTable).agrees u := by
  obtain ⟨hmem, rfl⟩ := PathTable.exit?_some he
  have hu := h.exits e hmem
  simp only [Exit.references, Nat.add_eq_zero_iff] at hr
  obtain ⟨⟨hroutes, hmembers⟩, hpins⟩ := hr
  refine ⟨fun x hx => h.exits x (List.mem_filter.mp hx).1, h.sets, Uses.stand_without h (gone := .exit e.id) (fun t ht hs => ?_)
    (hu.routes.symm.trans hroutes) (hu.pins.symm.trans hpins) (fun k x hx hg => ?_) fun _ _ => nofun⟩
  · cases t with
    | exit j =>
      obtain ⟨x, hx, rfl⟩ := PathTable.stands_exit.mp hs
      exact PathTable.stands_exit.mpr ⟨x, List.mem_filter.mpr ⟨hx, by simpa using fun hj => ht (by rw [hj])⟩, rfl⟩
    | pathSet | discard | control => exact hs
  · obtain rfl := Target.exit.inj hg
    have hlen : e.users.length = 0 := hu.count.symm.trans hmembers
    have huse := (hu.users k).mpr hx
    rw [List.length_eq_zero_iff.mp hlen] at huse
    cases huse

theorem PathTable.insertSet_agrees {p : PathSet} (hfree : pt.set? p.id = none) (hr : p.routeRefs = 0) (hp : p.pinRefs = 0)
    (hb : p.backupRefs = 0) : ({ pt with sets := insertBy PathSet.id p pt.sets } : PathTable).agrees u := by
  have hstands : pt.stands (.pathSet p.id) = false := by simp [PathTable.stands, hfree]
  obtain ⟨hnr, hnp⟩ := PathTable.agrees_free h hstands
  have hnb : u.backups p.id = 0 := by
    by_contra hn
    rw [h.stand.backups p.id (Nat.pos_of_ne_zero hn)] at hstands
    cases hstands
  refine ⟨h.exits, fun x hx => ?_, Uses.stand_mono h.stand fun t ht => ?_⟩
  · rcases mem_insertBy.mp hx with rfl | hx
    · exact ⟨hr.trans hnr.symm, hp.trans hnp.symm, hb.trans hnb.symm⟩
    · exact h.sets x hx
  · cases t with
    | pathSet i =>
      obtain ⟨y, hy, hi⟩ := PathTable.stands_pathSet.mp ht
      exact PathTable.stands_pathSet.mpr ⟨y, mem_insertBy.mpr (.inr hy), hi⟩
    | exit | discard | control => exact ht

theorem PathTable.filterSets_agrees {i : Nat} (hr : u.routes (.pathSet i) = 0) (hp : u.pins (.pathSet i) = 0)
    (hb : u.backups i = 0) : ({ pt with sets := pt.sets.filter (·.id != i) } : PathTable).agrees u := by
  refine ⟨h.exits, fun x hx => h.sets x (List.mem_filter.mp hx).1, Uses.stand_without h (gone := .pathSet i) (fun t ht hs => ?_)
    hr hp (fun _ _ _ => nofun) fun j hj hg => ?_⟩
  · cases t with
    | pathSet j =>
      obtain ⟨x, hx, rfl⟩ := PathTable.stands_pathSet.mp hs
      exact PathTable.stands_pathSet.mpr ⟨x, List.mem_filter.mpr ⟨hx, by simpa using fun hj => ht (by rw [hj])⟩, rfl⟩
    | exit | discard | control => exact hs
  · obtain rfl := Target.pathSet.inj hg
    omega

end

end Sys2Proof.Machine
end

section
/-! PROOFS. The tally of the path sets' own naming, and that the commands which change the Path Table's records keep the
agreement with it (R39 to R50). -/

namespace Sys2Proof.Machine

-- The proofs are elaborated one after another: each thread counts against the memory in which the text is checked.
set_option Elab.async false

/-! ### What the path sets name -/

/-- The exits that the set's members name. -/
def PathSet.exits (p : PathSet) : List Nat := p.members.map (·.exit)

/-- The set names the exit as a member's. -/
def PathTable.names (pt : PathTable) (k x : Nat) : Prop := ∃ p ∈ pt.sets, p.id = k ∧ x ∈ p.exits

/-- The number of sets whose backup the set is. -/
def PathTable.backups (pt : PathTable) (i : Nat) : Nat := pt.sets.countP (·.backup == some i)

/-- What names the records: the path sets, and the routes and pins given. -/
def PathTable.tally (pt : PathTable) (routes pins : Target → Nat) : Uses := ⟨routes, pins, pt.names, pt.backups⟩

/-- No set is its own backup (R44, R45). -/
def PathTable.noSelf (pt : PathTable) : Prop := ∀ p ∈ pt.sets, p.backup ≠ some p.id

/-- The counts agree with what names the records, and no set is its own backup (R31 to R34). -/
structure PathTable.tallies (pt : PathTable) (routes pins : Target → Nat) : Prop where
  agrees : pt.agrees (pt.tally routes pins)
  noSelf : pt.noSelf

/-- The second record has the first one's ID, counts and backup, and members that name the same exits. -/
structure PathSet.sameUse (p q : PathSet) : Prop where
  id : q.id = p.id
  routes : q.routeRefs = p.routeRefs
  pins : q.pinRefs = p.pinRefs
  backups : q.backupRefs = p.backupRefs
  backup : q.backup = p.backup
  exits : q.exits = p.exits

theorem PathSet.gain_sameUse {p q : PathSet} (h : p.sameUse q) : p.sameUse q.gain := by
  rw [PathSet.gain_eq]
  exact { h with }

theorem PathSet.updMember_sameUse (p : PathSet) (x : Nat) {f : Member → Member} (hf : ∀ m, (f m).exit = m.exit) :
    p.sameUse (p.updMember x f) := by
  refine ⟨rfl, rfl, rfl, rfl, rfl, ?_⟩
  rw [PathSet.exits, PathSet.updMember, List.map_map]
  refine List.map_congr_left fun m _ => ?_
  simp only [Function.comp_apply]
  split
  · exact hf m
  · rfl

theorem PathSet.fill_sameUse (p : PathSet) : p.sameUse p.fill := ⟨rfl, rfl, rfl, rfl, rfl, rfl⟩

theorem PathSet.reweigh_sameUse (p : PathSet) (x k : Nat) : p.sameUse (p.reweigh x k) :=
  PathSet.gain_sameUse (p.updMember_sameUse x fun _ => rfl)

theorem PathSet.memberUpdate_sameUse (p : PathSet) (x : Nat) (up : Bool) : p.sameUse (p.memberUpdate x up) := by
  unfold PathSet.memberUpdate
  split
  · exact ⟨rfl, rfl, rfl, rfl, rfl, rfl⟩
  · split
    · exact ⟨rfl, rfl, rfl, rfl, rfl, rfl⟩
    · split
      · exact PathSet.gain_sameUse (p.updMember_sameUse x fun _ => rfl)
      · have hdown := p.updMember_sameUse x (f := fun m => { m with up := false }) fun _ => rfl
        exact { hdown with }

theorem PathSet.names_iff {p : PathSet} {x : Nat} : p.names x = true ↔ x ∈ p.exits := by
  simp [PathSet.names, PathSet.exits]

/-! ### The tally under changes of the sets -/

section
variable {pt : PathTable} {i j k x : Nat} {p : PathSet}

theorem PathTable.tally_congr {pt' : PathTable} (h : pt'.sets = pt.sets) (routes pins : Target → Nat) :
    pt'.tally routes pins = pt.tally routes pins := by
  ext k x
  · rfl
  · rfl
  · exact iff_of_eq (congrArg (fun l : List PathSet => ∃ p ∈ l, p.id = k ∧ x ∈ p.exits) h)
  · exact congrArg (List.countP _) h

/-- A change of a record's member states, weights and counts changes no name. -/
theorem PathTable.names_updSet_same {f : PathSet → PathSet} (hf : ∀ p, (f p).id = p.id ∧ (f p).exits = p.exits) :
    (pt.updSet i f).names = pt.names := by
  have hsame : ∀ p : PathSet, (if p.id == i then f p else p).id = p.id ∧ (if p.id == i then f p else p).exits = p.exits :=
    fun p => by
      split
      · exact hf p
      · exact ⟨rfl, rfl⟩
  funext k x
  refine propext ?_
  show (∃ p ∈ pt.sets.map _, _) ↔ ∃ p ∈ pt.sets, _
  simp only [List.mem_map, exists_exists_and_eq_and, (hsame _).1, (hsame _).2]

theorem PathTable.backups_updSet_same {f : PathSet → PathSet} (hf : ∀ p, (f p).backup = p.backup) :
    (pt.updSet i f).backups = pt.backups := by
  have hsame : ∀ p : PathSet, (if p.id == i then f p else p).backup = p.backup := fun p => by
    split
    · exact hf p
    · rfl
  funext j
  show (pt.sets.map _).countP _ = pt.sets.countP _
  simp only [List.countP_map, Function.comp_def, hsame]

/-- A change of a record that keeps whom it names. -/
theorem PathTable.tally_updSet {f : PathSet → PathSet} (hf : ∀ p, (f p).id = p.id ∧ (f p).exits = p.exits ∧
    (f p).backup = p.backup) (routes pins : Target → Nat) : (pt.updSet i f).tally routes pins = pt.tally routes pins :=
  Uses.ext rfl rfl (PathTable.names_updSet_same fun p => ⟨(hf p).1, (hf p).2.1⟩)
    (PathTable.backups_updSet_same fun p => (hf p).2.2)

section
variable (h : pt.lawful) (hp : pt.set? i = some p)
include h hp

/-- The set found under an ID is the only one of that ID. -/
theorem PathTable.set?_unique {q : PathSet} (hq : q ∈ pt.sets) (hi : q.id = i) : q = p := by
  have hf := PathTable.set?_of_mem h hq
  rw [hi, hp] at hf
  exact (Option.some.inj hf).symm

theorem PathTable.names_found : pt.names i x ↔ x ∈ p.exits := by
  obtain ⟨hmem, hid⟩ := PathTable.set?_some hp
  constructor
  · rintro ⟨q, hq, hi, hx⟩
    rwa [PathTable.set?_unique h hp hq hi] at hx
  · exact fun hx => ⟨p, hmem, hid, hx⟩

/-- The one set of an ID, and the others. -/
theorem PathTable.sets_perm : pt.sets.Perm (p :: pt.sets.filter (·.id != i)) := by
  obtain ⟨hmem, hid⟩ := PathTable.set?_some hp
  have ⟨_, hsorted, _⟩ := h
  have hnodup : pt.sets.Nodup := hsorted.imp fun hlt he => by rw [he] at hlt; exact Nat.lt_irrefl _ hlt
  have hfilter : pt.sets.filter (·.id != i) = pt.sets.erase p := by
    rw [hnodup.erase_eq_filter]
    refine List.filter_congr fun q hq => ?_
    rw [Bool.eq_iff_iff, bne_iff_ne, bne_iff_ne]
    exact not_congr ⟨PathTable.set?_unique h hp hq, fun he => he ▸ hid⟩
  rw [hfilter]
  exact List.perm_cons_erase hmem

/-- The sets whose backup a set is: the one of an ID, and the others. -/
theorem PathTable.backups_split : pt.backups j =
    (pt.sets.filter (·.id != i)).countP (·.backup == some j) + if p.backup = some j then 1 else 0 := by
  rw [PathTable.backups, (PathTable.sets_perm h hp).countP_eq, List.countP_cons]
  simp only [beq_iff_eq]

/-- A change of one record, as what it names shows it. -/
theorem PathTable.names_updSet {f : PathSet → PathSet} (hf : ∀ p, (f p).id = p.id) :
    (pt.updSet i f).names k x ↔ if k = i then x ∈ (f p).exits else pt.names k x := by
  obtain ⟨hmem, hid⟩ := PathTable.set?_some hp
  constructor
  · rintro ⟨q, hq, rfl, hx⟩
    obtain ⟨r, hr, rfl⟩ := List.mem_map.mp hq
    by_cases hi : r.id = i
    · rw [PathTable.set?_unique h hp hr hi] at hx ⊢
      simpa [hid, hf] using hx
    · simp only [beq_iff_eq, hi, if_false] at hx ⊢
      exact ⟨r, hr, rfl, hx⟩
  · split
    · rename_i hk
      exact fun hx => ⟨f p, List.mem_map.mpr ⟨p, hmem, by simp [hid]⟩, by rw [hf, hid, hk], hx⟩
    · rename_i hk
      rintro ⟨q, hq, rfl, hx⟩
      exact ⟨q, List.mem_map.mpr ⟨q, hq, by simp [hk]⟩, rfl, hx⟩

theorem PathTable.backups_updSet (f : PathSet → PathSet) :
    (pt.updSet i f).backups j + (if p.backup = some j then 1 else 0) = pt.backups j + if (f p).backup = some j then 1 else 0 := by
  obtain ⟨-, hid⟩ := PathTable.set?_some hp
  have hothers : ((p :: pt.sets.filter (·.id != i)).map fun q => if q.id == i then f q else q) =
      f p :: pt.sets.filter (·.id != i) := by
    rw [List.map_cons, hid, beq_self_eq_true, if_pos rfl]
    refine congrArg _ ((List.map_congr_left fun q hq => ?_).trans (List.map_id _))
    exact if_neg (by simpa using (List.mem_filter.mp hq).2)
  rw [PathTable.backups_split h hp, PathTable.backups, PathTable.updSet, ((PathTable.sets_perm h hp).map _).countP_eq, hothers,
    List.countP_cons]
  simp only [beq_iff_eq]
  omega

end

end

/-! ### Records that are changed -/

theorem PathTable.updSet_noSelf {pt : PathTable} (h : pt.noSelf) {i : Nat} {f : PathSet → PathSet}
    (hf : ∀ p, (f p).id = p.id ∧ (f p).backup = p.backup) : (pt.updSet i f).noSelf :=
  List.forall_mem_map.mpr fun p hp => by
    split
    · rw [(hf p).1, (hf p).2]
      exact h p hp
    · exact h p hp

section
variable {pt : PathTable} {routes pins : Target → Nat} (h : pt.tallies routes pins)
include h

theorem PathTable.tallies_congr {pt' : PathTable} (he : pt'.exits = pt.exits) (hs : pt'.sets = pt.sets) :
    pt'.tallies routes pins where
  agrees := PathTable.tally_congr hs routes pins ▸ PathTable.agrees_congr h.agrees he hs
  noSelf p hp := h.noSelf p (hs ▸ hp)

theorem PathTable.updSet_tallies (i : Nat) {f : PathSet → PathSet} (hf : ∀ p : PathSet, p.sameUse (f p)) :
    (pt.updSet i f).tallies routes pins where
  agrees := by
    rw [PathTable.tally_updSet fun p => ⟨(hf p).id, (hf p).exits, (hf p).backup⟩]
    exact PathTable.updSet_agrees_same h.agrees i fun p => ⟨(hf p).id, (hf p).routes, (hf p).pins, (hf p).backups⟩
  noSelf := PathTable.updSet_noSelf h.noSelf fun p => ⟨(hf p).id, (hf p).backup⟩

theorem PathTable.updExit_tallies (i : Nat) {f : Exit → Exit} (hf : ∀ e, (f e).id = e.id ∧ (f e).routeRefs = e.routeRefs ∧
    (f e).pinRefs = e.pinRefs ∧ (f e).memberRefs = e.memberRefs ∧ (f e).users = e.users) :
    (pt.updExit i f).tallies routes pins where
  agrees := PathTable.updExit_agrees_same h.agrees i hf
  noSelf := h.noSelf

theorem PathTable.countRoute_tallies {f : Nat → Nat} {t : Target} (hs : 0 < f (routes t) → pt.stands t = true) :
    (pt.countRoute f t).tallies (Function.update routes t (f (routes t))) pins := by
  have hagrees := PathTable.countRoute_agrees h.agrees (f := f) (t := t) hs
  cases t with
  | pathSet i =>
    refine ⟨?_, PathTable.updSet_noSelf h.noSelf fun p => ⟨rfl, rfl⟩⟩
    rw [PathTable.countRoute, PathTable.tally_updSet (f := fun p => { p with routeRefs := f p.routeRefs }) fun p => ⟨rfl, rfl, rfl⟩]
    exact hagrees
  | exit | discard | control => exact ⟨hagrees, h.noSelf⟩

theorem PathTable.countPin_tallies {f : Nat → Nat} {t : Target} (hs : 0 < f (pins t) → pt.stands t = true) :
    (pt.countPin f t).tallies routes (Function.update pins t (f (pins t))) := by
  have hagrees := PathTable.countPin_agrees h.agrees (f := f) (t := t) hs
  cases t with
  | pathSet i =>
    refine ⟨?_, PathTable.updSet_noSelf h.noSelf fun p => ⟨rfl, rfl⟩⟩
    rw [PathTable.countPin, PathTable.tally_updSet (f := fun p => { p with pinRefs := f p.pinRefs }) fun p => ⟨rfl, rfl, rfl⟩]
    exact hagrees
  | exit | discard | control => exact ⟨hagrees, h.noSelf⟩

/-! ### EXIT CREATE and EXIT DELETE (R39, R42) -/

theorem PathTable.insertExit_tallies {e : Exit} (hfree : pt.exit? e.id = none) (hr : e.routeRefs = 0) (hp : e.pinRefs = 0)
    (hm : e.memberRefs = 0) (hu : e.users = []) :
    ({ pt with exits := insertBy Exit.id e pt.exits } : PathTable).tallies routes pins where
  agrees := PathTable.insertExit_agrees h.agrees hfree hr hp hm hu
  noSelf := h.noSelf

theorem PathTable.filterExits_tallies {e : Exit} {i : Nat} (he : pt.exit? i = some e) (hr : e.references = 0) :
    ({ pt with exits := pt.exits.filter (·.id != i) } : PathTable).tallies routes pins where
  agrees := PathTable.filterExits_agrees h.agrees he hr
  noSelf := h.noSelf

end

/-! ### Members and backups that a command takes and releases (R32, R33) -/

/-- A set that may be none is the backup of one more set, or of one fewer. -/
def Uses.takeBackup (u : Uses) : Option Nat → Uses
  | none => u
  | some b => u.countBackup (· + 1) b
def Uses.releaseBackup (u : Uses) : Option Nat → Uses
  | none => u
  | some b => u.countBackup (· - 1) b

theorem Uses.takeBackup_eq (u : Uses) (b : Option Nat) :
    u.takeBackup b = { u with backups := fun j => u.backups j + if b = some j then 1 else 0 } := by
  cases b with
  | none => simp [Uses.takeBackup]
  | some b =>
    refine Uses.ext rfl rfl rfl (funext fun j => ?_)
    by_cases hj : j = b
    · subst hj
      simp [Uses.takeBackup, Uses.countBackup]
    · simp [Uses.takeBackup, Uses.countBackup, hj, Ne.symm hj]

theorem Uses.releaseBackup_eq (u : Uses) (b : Option Nat) :
    u.releaseBackup b = { u with backups := fun j => u.backups j - if b = some j then 1 else 0 } := by
  cases b with
  | none => simp [Uses.releaseBackup]
  | some b =>
    refine Uses.ext rfl rfl rfl (funext fun j => ?_)
    by_cases hj : j = b
    · subst hj
      simp [Uses.releaseBackup, Uses.countBackup]
    · simp [Uses.releaseBackup, Uses.countBackup, hj, Ne.symm hj]

section
variable {u : Uses} {pt : PathTable} (h : pt.agrees u)
include h

theorem PathTable.takeBackup_agrees {b : Nat} (hs : pt.stands (.pathSet b) = true) :
    (pt.takeBackup b).agrees (u.takeBackup (some b)) := PathTable.updBackup_agrees h fun _ => hs

theorem PathTable.releaseBackup_agrees (b : Option Nat) : (pt.releaseBackup b).agrees (u.releaseBackup b) := by
  cases b with
  | none => exact h
  | some b => exact PathTable.updBackup_agrees h (f := (· - 1)) fun hb => h.stand.backups b (Nat.lt_of_lt_of_le hb (Nat.sub_le _ _))

end

theorem PathTable.join_stands (pt : PathTable) (set x : Nat) (t : Target) : (pt.join set x).stands t = pt.stands t :=
  PathTable.updExit_stands (f := fun e => { e with memberRefs := e.memberRefs + 1, users := insertBy id set e.users })
    (fun _ => rfl) t

theorem PathTable.foldl_join_agrees {set : Nat} {entries : List (Nat × Nat)} (hn : (entries.map (·.1)).Nodup) {u : Uses}
    {pt : PathTable} (h : pt.agrees u) (hs : ∀ x ∈ entries.map (·.1), pt.stands (.exit x) = true)
    (hu : ∀ x ∈ entries.map (·.1), ¬ u.members set x) :
    (entries.foldl (fun t x => t.join set x.1) pt).agrees (u.join set (entries.map (·.1))) := by
  induction entries generalizing u pt with
  | nil => simpa [Uses.join] using h
  | cons x xs ih =>
    obtain ⟨hx, hxs⟩ : x.1 ∉ xs.map (·.1) ∧ (xs.map (·.1)).Nodup := List.nodup_cons.mp hn
    have hjoined := PathTable.join_agrees h (hs x.1 List.mem_cons_self) (hu x.1 List.mem_cons_self)
    have hrest := ih hxs hjoined
      (fun y hy => (pt.join_stands set x.1 _).trans (hs y (List.mem_cons_of_mem _ hy)))
      fun y hy hmem => hmem.elim (hu y (List.mem_cons_of_mem _ hy)) fun ⟨_, he⟩ => hx (List.mem_singleton.mp he ▸ hy)
    have heq : (u.join set [x.1]).join set (xs.map (·.1)) = u.join set ((x :: xs).map (·.1)) :=
      Uses.ext rfl rfl (funext₂ fun k y => by simp [Uses.join, or_assoc, and_or_left]) rfl
    exact heq ▸ hrest

theorem PathTable.foldl_leave_agrees {set : Nat} {ms : List Member} (hn : (ms.map (·.exit)).Nodup) {u : Uses}
    {pt : PathTable} (h : pt.agrees u) (hu : ∀ x ∈ ms.map (·.exit), u.members set x) :
    (ms.foldl (fun t m => t.leave set m.exit) pt).agrees (u.leave set (ms.map (·.exit))) := by
  induction ms generalizing u pt with
  | nil => simpa [Uses.leave] using h
  | cons m ms ih =>
    obtain ⟨hm, hms⟩ : m.exit ∉ ms.map (·.exit) ∧ (ms.map (·.exit)).Nodup := List.nodup_cons.mp hn
    have hrest := ih hms (PathTable.leave_agrees h (hu m.exit List.mem_cons_self)) fun y hy =>
      ⟨hu y (List.mem_cons_of_mem _ hy), fun ⟨_, he⟩ => hm (List.mem_singleton.mp he ▸ hy)⟩
    have heq : (u.leave set [m.exit]).leave set (ms.map (·.exit)) = u.leave set ((m :: ms).map (·.exit)) :=
      Uses.ext rfl rfl (funext₂ fun k y => by simp [Uses.leave, and_assoc, and_or_left, not_or]) rfl
    exact heq ▸ hrest

end Sys2Proof.Machine
end

section
/-! PROOFS. The commands that make, change and end path sets and memberships keep the agreement of references (R44 to R49). -/

namespace Sys2Proof.Machine

-- The proofs are elaborated one after another: each thread counts against the memory in which the text is checked.
set_option Elab.async false

/-! ### Backups taken and released -/

section
variable {pt : PathTable} (routes pins : Target → Nat)

theorem PathTable.updBackup_tally (b : Nat) (f : Nat → Nat) :
    (pt.updSet b fun p => { p with backupRefs := f p.backupRefs }).tally routes pins = pt.tally routes pins :=
  PathTable.tally_updSet (f := fun p => { p with backupRefs := f p.backupRefs }) (fun _ => ⟨rfl, rfl, rfl⟩) routes pins

theorem PathTable.takeBackup_tally (b : Nat) : (pt.takeBackup b).tally routes pins = pt.tally routes pins :=
  PathTable.updBackup_tally routes pins b (· + 1)

theorem PathTable.releaseBackup_tally (b : Option Nat) : (pt.releaseBackup b).tally routes pins = pt.tally routes pins := by
  cases b with
  | none => rfl
  | some b => exact PathTable.updBackup_tally routes pins b (· - 1)

end

section
variable {pt : PathTable} (h : pt.noSelf)
include h

theorem PathTable.takeBackup_noSelf (b : Nat) : (pt.takeBackup b).noSelf := PathTable.updSet_noSelf h fun _ => ⟨rfl, rfl⟩

theorem PathTable.releaseBackup_noSelf (b : Option Nat) : (pt.releaseBackup b).noSelf := by
  cases b with
  | none => exact h
  | some b => exact PathTable.updSet_noSelf h fun _ => ⟨rfl, rfl⟩

end

/-! ### SET DELETE (R46) -/

/-- What is named once a set has gone. -/
theorem PathTable.filterSets_tally {pt : PathTable} (hl : pt.lawful) {i : Nat} {p : PathSet} (hp : pt.set? i = some p)
    (routes pins : Target → Nat) : ({ pt with sets := pt.sets.filter (·.id != i) } : PathTable).tally routes pins =
      ((pt.tally routes pins).releaseBackup p.backup).leave i p.exits := by
  rw [Uses.releaseBackup_eq]
  refine Uses.ext rfl rfl (funext₂ fun k x => propext ?_) (funext fun j => ?_)
  · show (∃ q ∈ pt.sets.filter (·.id != i), q.id = k ∧ x ∈ q.exits) ↔ pt.names k x ∧ ¬ (k = i ∧ x ∈ p.exits)
    constructor
    · rintro ⟨q, hq, rfl, hx⟩
      obtain ⟨hq, hne⟩ := List.mem_filter.mp hq
      exact ⟨⟨q, hq, rfl, hx⟩, fun ⟨he, _⟩ => by simp [he] at hne⟩
    · rintro ⟨⟨q, hq, rfl, hx⟩, hne⟩
      refine ⟨q, List.mem_filter.mpr ⟨hq, ?_⟩, rfl, hx⟩
      rw [bne_iff_ne]
      exact fun he => hne ⟨he, PathTable.set?_unique hl hp hq he ▸ hx⟩
  · show (pt.sets.filter (·.id != i)).countP _ = pt.backups j - _
    rw [PathTable.backups_split hl hp, Nat.add_sub_cancel]

theorem PathTable.deleteSet_tallies {pt : PathTable} {routes pins : Target → Nat} (h : pt.tallies routes pins) (hl : pt.lawful)
    {i : Nat} {p : PathSet} (hp : pt.set? i = some p) (hr : p.references = 0) : (pt.deleteSet p).tallies routes pins := by
  obtain ⟨hmem, rfl⟩ := PathTable.set?_some hp
  have hu := h.agrees.sets p hmem
  have hself := h.noSelf p hmem
  obtain ⟨-, hnodup, -⟩ := PathTable.set?_lawful hl hp
  simp only [PathSet.references, Nat.add_eq_zero_iff] at hr
  obtain ⟨⟨hroutes, hbackups⟩, hpins⟩ := hr
  obtain ⟨hsets, -, -⟩ := PathTable.foldl_leave_frame p.id p.members (pt.releaseBackup p.backup)
  have hfound : (pt.releaseBackup p.backup).set? p.id = some p := by
    rw [PathTable.releaseBackup_set?, hp, Option.map_some, if_neg hself]
  have htally : (pt.deleteSet p).tally routes pins = ((pt.tally routes pins).releaseBackup p.backup).leave p.id p.exits := by
    refine (PathTable.tally_congr (congrArg (List.filter _) hsets) routes pins).trans
      ((PathTable.filterSets_tally (PathTable.releaseBackup_lawful hl p.backup) hfound routes pins).trans ?_)
    rw [PathTable.releaseBackup_tally]
  have hleft := PathTable.foldl_leave_agrees (set := p.id) hnodup (PathTable.releaseBackup_agrees h.agrees p.backup)
    fun x hx => by
      rw [Uses.releaseBackup_eq]
      exact (PathTable.names_found hl hp).mpr hx
  refine ⟨htally ▸ PathTable.filterSets_agrees hleft ?_ ?_ ?_, fun q hq => ?_⟩
  · rw [Uses.releaseBackup_eq]
    exact hu.routes.symm.trans hroutes
  · rw [Uses.releaseBackup_eq]
    exact hu.pins.symm.trans hpins
  · rw [Uses.releaseBackup_eq]
    show pt.backups p.id - _ = 0
    have hnone : pt.backups p.id = 0 := hu.backups.symm.trans hbackups
    omega
  · have hq := (List.mem_filter.mp hq).1
    rw [hsets] at hq
    exact PathTable.releaseBackup_noSelf h.noSelf p.backup q hq

/-! ### SET CREATE (R44) -/

/-- What is named once a set has come. -/
theorem PathTable.insertSet_tally (pt : PathTable) (p : PathSet) (routes pins : Target → Nat) :
    ({ pt with sets := insertBy PathSet.id p pt.sets } : PathTable).tally routes pins =
      ((pt.tally routes pins).takeBackup p.backup).join p.id p.exits := by
  rw [Uses.takeBackup_eq]
  refine Uses.ext rfl rfl (funext₂ fun k x => propext ?_) (funext fun j => ?_)
  · show (∃ q ∈ insertBy PathSet.id p pt.sets, q.id = k ∧ x ∈ q.exits) ↔ pt.names k x ∨ (k = p.id ∧ x ∈ p.exits)
    constructor
    · rintro ⟨q, hq, rfl, hx⟩
      rcases mem_insertBy.mp hq with rfl | hq
      · exact .inr ⟨rfl, hx⟩
      · exact .inl ⟨q, hq, rfl, hx⟩
    · rintro (⟨q, hq, rfl, hx⟩ | ⟨rfl, hx⟩)
      · exact ⟨q, mem_insertBy.mpr (.inr hq), rfl, hx⟩
      · exact ⟨p, mem_insertBy.mpr (.inl rfl), rfl, hx⟩
  · show (insertBy PathSet.id p pt.sets).countP _ = pt.backups j + _
    rw [(insertBy_perm _ _ _).countP_eq, List.countP_cons, PathTable.backups]
    simp only [beq_iff_eq]

/-- A set's new members join it, and its record comes. -/
theorem PathTable.joinAndInsert_agrees {pt : PathTable} {u : Uses} (h : pt.agrees u) {p : PathSet} {entries : List (Nat × Nat)}
    (hfree : pt.set? p.id = none) (hn : (entries.map (·.1)).Nodup) (hs : ∀ x ∈ entries.map (·.1), pt.stands (.exit x) = true)
    (hu : ∀ x, ¬ u.members p.id x) (hr : p.routeRefs = 0) (hp : p.pinRefs = 0) (hb : p.backupRefs = 0) :
    let joined := entries.foldl (fun t x => t.join p.id x.1) pt
    ({ joined with sets := insertBy PathSet.id p joined.sets } : PathTable).agrees (u.join p.id (entries.map (·.1))) := by
  refine PathTable.insertSet_agrees (PathTable.foldl_join_agrees hn h hs fun x _ => hu x) ?_ hr hp hb
  rw [PathTable.set?, PathTable.foldl_join_sets]
  exact hfree

/-- What SET CREATE's checks leave of what it names. -/
theorem SetCreate.refusal_names {c : SetCreate} {pt : PathTable} (h : c.refusal pt = none) : c.backup ≠ some c.id ∧
    (∀ b, c.backup = some b → pt.stands (.pathSet b) = true) ∧ ∀ x ∈ c.entries.map (·.1), pt.stands (.exit x) = true := by
  unfold SetCreate.refusal at h
  split at h
  · cases h
  split at h
  · cases h
  split at h
  · cases h
  rename_i hself
  split at h
  · cases h
  split at h
  · cases h
  rename_i hstands
  simp only [Bool.or_eq_true, not_or, Option.any_eq_true, List.any_eq_true, not_exists, not_and, Option.isNone_iff_eq_none] at hstands
  refine ⟨by simpa using hself, fun b hb => Option.isSome_iff_ne_none.mpr (hstands.1 b hb), fun x hx => ?_⟩
  obtain ⟨y, hy, rfl⟩ := List.mem_map.mp hx
  exact Option.isSome_iff_ne_none.mpr (hstands.2 y hy)

theorem SetCreate.record_exits {c : SetCreate} {pt : PathTable} {reads : List Bool} (hl : c.entries.length ≤ reads.length) :
    (c.record pt reads).exits = c.entries.map (·.1) := by
  have hentries := congrArg (List.map Prod.fst) (SetCreate.members_entries (pt := pt) hl)
  rw [List.map_map] at hentries
  exact hentries

/-- The takes of SET CREATE and its record, the backup's take made before. -/
def SetCreate.joined (c : SetCreate) (pt taken : PathTable) (reads : List Bool) : PathTable :=
  let joined := c.entries.foldl (fun t x => t.join c.id x.1) taken
  { joined with sets := insertBy PathSet.id (c.record pt reads) joined.sets }

theorem SetCreate.apply_none {c : SetCreate} (h : c.backup = none) (pt : PathTable) (reads : List Bool) :
    c.apply pt reads = c.joined pt pt reads := by
  simp only [SetCreate.apply, SetCreate.joined, h]

theorem SetCreate.apply_some {c : SetCreate} {b : Nat} (h : c.backup = some b) (pt : PathTable) (reads : List Bool) :
    c.apply pt reads = c.joined pt (pt.takeBackup b) reads := by
  simp only [SetCreate.apply, SetCreate.joined, h]

section
variable {c : SetCreate} {pt : PathTable} {reads : List Bool} (hr : c.refusal pt = none) (hl : c.entries.length ≤ reads.length)
  {routes pins : Target → Nat}
include hr hl

theorem SetCreate.joined_tallies {taken : PathTable} (htaken : taken.agrees ((pt.tally routes pins).takeBackup c.backup))
    (hnames : taken.tally routes pins = pt.tally routes pins) (hstands : ∀ t, taken.stands t = pt.stands t)
    (hnoSelf : taken.noSelf) : (c.joined pt taken reads).tallies routes pins := by
  obtain ⟨-, hn, hfree⟩ := SetCreate.refusal_eq_none hr
  obtain ⟨hself, -, hexits⟩ := SetCreate.refusal_names hr
  have hfree' : taken.set? c.id = none := by
    have hst := hstands (.pathSet c.id)
    simpa [PathTable.stands, hfree] using hst
  have hsets : (c.joined pt taken reads).sets = insertBy PathSet.id (c.record pt reads) taken.sets :=
    congrArg (insertBy PathSet.id _) (PathTable.foldl_join_sets c.id c.entries taken)
  have htally : (c.joined pt taken reads).tally routes pins =
      ((pt.tally routes pins).takeBackup c.backup).join c.id (c.entries.map (·.1)) := by
    rw [← hnames, ← SetCreate.record_exits (pt := pt) hl]
    exact (PathTable.tally_congr hsets routes pins).trans (PathTable.insertSet_tally taken (c.record pt reads) routes pins)
  refine ⟨htally ▸ PathTable.joinAndInsert_agrees (p := c.record pt reads) htaken hfree' hn
    (fun x hx => (hstands _).trans (hexits x hx)) (fun x hx => ?_) rfl rfl rfl, fun p hp => ?_⟩
  · rw [Uses.takeBackup_eq] at hx
    obtain ⟨q, hq, hid, -⟩ := hx
    exact PathTable.set?_eq_none.mp hfree q hq hid
  · rw [hsets] at hp
    rcases mem_insertBy.mp hp with rfl | hp
    · exact hself
    · exact hnoSelf p hp

theorem SetCreate.apply_tallies (h : pt.tallies routes pins) : (c.apply pt reads).tallies routes pins := by
  obtain ⟨-, hbackup, -⟩ := SetCreate.refusal_names hr
  cases hb : c.backup with
  | none =>
    rw [SetCreate.apply_none hb]
    exact SetCreate.joined_tallies hr hl (by rw [hb]; exact h.agrees) rfl (fun _ => rfl) h.noSelf
  | some b =>
    rw [SetCreate.apply_some hb]
    refine SetCreate.joined_tallies hr hl (by rw [hb]; exact PathTable.takeBackup_agrees h.agrees (hbackup b hb))
      (PathTable.takeBackup_tally routes pins b) (fun t => ?_) (PathTable.takeBackup_noSelf h.noSelf b)
    exact PathTable.updSet_stands (f := fun p => { p with backupRefs := p.backupRefs + 1 }) (fun _ => rfl) t

end

/-! ### SET CHANGE (R45) -/

section
variable {pt : PathTable} {routes pins : Target → Nat} (h : pt.tallies routes pins) {c : SetChange} (old : Option Nat)

theorem SetChange.references_some {nb : Option Nat} (hc : c.backup = some nb) : c.references old pt =
    (nb.elim pt pt.takeBackup).releaseBackup old := by
  cases nb <;> simp only [SetChange.references, hc] <;> rfl

theorem SetChange.references_tally (routes pins : Target → Nat) :
    (c.references old pt).tally routes pins = pt.tally routes pins := by
  unfold SetChange.references
  split
  · rfl
  · exact PathTable.releaseBackup_tally routes pins old
  · exact (PathTable.releaseBackup_tally routes pins old).trans (PathTable.takeBackup_tally routes pins _)

include h

theorem SetChange.references_agrees {nb : Option Nat} (hc : c.backup = some nb)
    (hb : ∀ b, nb = some b → pt.stands (.pathSet b) = true) :
    (c.references old pt).agrees (((pt.tally routes pins).takeBackup nb).releaseBackup old) := by
  rw [SetChange.references_some old hc]
  refine PathTable.releaseBackup_agrees ?_ old
  cases nb with
  | none => exact h.agrees
  | some b => exact PathTable.takeBackup_agrees h.agrees (hb b rfl)

theorem SetChange.references_noSelf : (c.references old pt).noSelf := by
  unfold SetChange.references
  split
  · exact h.noSelf
  · exact PathTable.releaseBackup_noSelf h.noSelf old
  · exact PathTable.releaseBackup_noSelf (PathTable.takeBackup_noSelf h.noSelf _) old

end

theorem PathTable.setChange_tallies {pt : PathTable} {routes pins : Target → Nat} (h : pt.tallies routes pins) (hl : pt.lawful)
    {i : Nat} {p : PathSet} (hp : pt.set? i = some p) {c : SetChange} (hself : c.backup ≠ some (some i))
    (hb : ∀ b, c.backup = some (some b) → pt.stands (.pathSet b) = true) :
    ((c.references p.backup pt).updSet i c.apply).tallies routes pins := by
  cases hc : c.backup with
  | none =>
    have href : c.references p.backup pt = pt := by simp only [SetChange.references, hc]
    rw [href]
    exact PathTable.updSet_tallies h i fun q => ⟨rfl, rfl, rfl, rfl, by simp [SetChange.apply, hc], rfl⟩
  | some nb =>
    have hagrees := SetChange.references_agrees h p.backup hc fun b he => hb b (hc.trans (congrArg some he))
    have hnames := SetChange.references_tally (c := c) (pt := pt) p.backup routes pins
    obtain ⟨q, hq, hqb⟩ : ∃ q, (c.references p.backup pt).set? i = some q ∧ q.backup = p.backup := by
      rw [SetChange.references_set?, hp, Option.map_some]
      exact ⟨_, rfl, rfl⟩
    have happly : ∀ q : PathSet, (c.apply q).backup = nb := fun q => by simp [SetChange.apply, hc]
    have htally : ((c.references p.backup pt).updSet i c.apply).tally routes pins =
        ((pt.tally routes pins).takeBackup nb).releaseBackup p.backup := by
      rw [Uses.takeBackup_eq, Uses.releaseBackup_eq]
      refine Uses.ext rfl rfl ?_ (funext fun j => ?_)
      · exact (PathTable.names_updSet_same (f := c.apply) fun _ => ⟨rfl, rfl⟩).trans (congrArg Uses.members hnames)
      · have hcount := PathTable.backups_updSet (j := j) (SetChange.references_lawful hl c p.backup) hq c.apply
        have hold : (c.references p.backup pt).backups j = pt.backups j := congrFun (congrArg Uses.backups hnames) j
        rw [happly, hqb, hold] at hcount
        show ((c.references p.backup pt).updSet i c.apply).backups j =
          pt.backups j + (if nb = some j then 1 else 0) - if p.backup = some j then 1 else 0
        omega
    refine ⟨htally ▸ PathTable.updSet_agrees_same hagrees i fun _ => ⟨rfl, rfl, rfl, rfl⟩, List.forall_mem_map.mpr fun q hq => ?_⟩
    split
    · rename_i hi
      rw [happly]
      exact fun he => hself (by rw [hc, he, ← beq_iff_eq.mp hi]; rfl)
    · exact SetChange.references_noSelf h p.backup q hq

/-! ### MEMBER ADD and MEMBER REMOVE (R48, R49) -/

section
variable {pt : PathTable} {routes pins : Target → Nat} (h : pt.tallies routes pins) (hl : pt.lawful) {i : Nat} {p : PathSet}
  (hp : pt.set? i = some p) {m : Member}
include h hl hp

theorem PathTable.addMember_tallies (hm : m.exit ∉ p.exits) (hs : pt.stands (.exit m.exit) = true) :
    ((pt.join i m.exit).updSet i (·.addMember m)).tallies routes pins := by
  have htally : ((pt.join i m.exit).updSet i (·.addMember m)).tally routes pins =
      (pt.tally routes pins).join i [m.exit] := by
    refine Uses.ext rfl rfl (funext₂ fun k x => propext ?_) (PathTable.backups_updSet_same fun q => by rw [PathSet.addMember_eq])
    refine (PathTable.names_updSet (pt := pt.join i m.exit) (PathTable.join_lawful hl i m.exit) hp fun q => q.addMember_id m).trans ?_
    show _ ↔ pt.names k x ∨ (k = i ∧ x ∈ [m.exit])
    by_cases hk : k = i
    · subst hk
      rw [if_pos rfl, PathTable.names_found hl hp, PathSet.addMember_eq]
      simp [PathSet.exits]
    · simp only [hk, if_false, false_and, or_false]
      rfl
  refine ⟨htally ▸ PathTable.updSet_agrees_same (PathTable.join_agrees h.agrees hs fun hn => ?_) i fun q => ?_,
    PathTable.updSet_noSelf (pt := pt.join i m.exit) h.noSelf fun q => ?_⟩
  · exact hm ((PathTable.names_found hl hp).mp hn)
  · rw [PathSet.addMember_eq]
    exact ⟨rfl, rfl, rfl, rfl⟩
  · rw [PathSet.addMember_eq]
    exact ⟨rfl, rfl⟩

theorem PathTable.removeMember_tallies (hm : m.exit ∈ p.exits) :
    ((pt.leave i m.exit).updSet i (·.removeMember m)).tallies routes pins := by
  have htally : ((pt.leave i m.exit).updSet i (·.removeMember m)).tally routes pins =
      (pt.tally routes pins).leave i [m.exit] := by
    refine Uses.ext rfl rfl (funext₂ fun k x => propext ?_)
      (PathTable.backups_updSet_same fun q => by rw [PathSet.removeMember_eq])
    refine (PathTable.names_updSet (pt := pt.leave i m.exit) (PathTable.leave_lawful hl i m.exit) hp fun q =>
      q.removeMember_id m).trans ?_
    show _ ↔ pt.names k x ∧ ¬ (k = i ∧ x ∈ [m.exit])
    by_cases hk : k = i
    · subst hk
      rw [if_pos rfl, PathTable.names_found hl hp, PathSet.removeMember_eq]
      simp only [PathSet.exits, List.mem_map, List.mem_filter, bne_iff_ne, List.mem_singleton, true_and]
      constructor
      · rintro ⟨y, ⟨hy, hne⟩, rfl⟩
        exact ⟨⟨y, hy, rfl⟩, hne⟩
      · rintro ⟨⟨y, hy, rfl⟩, hne⟩
        exact ⟨y, ⟨hy, hne⟩, rfl⟩
    · simp only [hk, if_false, false_and, not_false_iff, and_true]
      rfl
  refine ⟨htally ▸ PathTable.updSet_agrees_same (PathTable.leave_agrees h.agrees ((PathTable.names_found hl hp).mpr hm)) i
    fun q => ?_, PathTable.updSet_noSelf (pt := pt.leave i m.exit) h.noSelf fun q => ?_⟩
  · rw [PathSet.removeMember_eq]
    exact ⟨rfl, rfl, rfl, rfl⟩
  · rw [PathSet.removeMember_eq]
    exact ⟨rfl, rfl⟩

end

end Sys2Proof.Machine
end

section
/-! PROOFS. The agreement of references as a property of the state, and that the jobs' own operations keep their pins (R34). -/

namespace Sys2Proof.Machine

-- The proofs are elaborated one after another: each thread counts against the memory in which the text is checked.
set_option Elab.async false

/-! ### The state's tally -/

/-- The number of routes to a target. -/
def RouteStore.routesTo (rs : RouteStore) (t : Target) : Nat := rs.routes.countP (·.target == t)

/-- References and user lists are what the sets, the routes and the jobs make them. -/
def State.tallied (s : State) : Prop := s.pt.tallies s.rs.routesTo s.je.pins

/-- In a table in ascending ID the user list of an exit is the sets that name it, in that order. -/
theorem PathTable.users_eq {pt : PathTable} (hl : pt.lawful) {x : Nat} {users : List Nat} :
    users = (pt.sets.filter (·.names x)).map (·.id) ↔ users.Pairwise (· < ·) ∧ ∀ k, k ∈ users ↔ pt.names k x := by
  have ⟨_, hsorted, _⟩ := hl
  have hlist : ((pt.sets.filter (·.names x)).map (·.id)).Pairwise (· < ·) := List.pairwise_map.mpr (hsorted.filter _)
  have hmem : ∀ k, k ∈ (pt.sets.filter (·.names x)).map (·.id) ↔ pt.names k x := fun k => by
    simp only [List.mem_map, List.mem_filter, PathSet.names_iff, PathTable.names]
    exact ⟨fun ⟨p, ⟨hp, hx⟩, hk⟩ => ⟨p, hp, hk, hx⟩, fun ⟨p, hp, hk, hx⟩ => ⟨p, ⟨hp, hx⟩, hk⟩⟩
  constructor
  · rintro rfl
    exact ⟨hlist, hmem⟩
  · rintro ⟨hu, hk⟩
    exact hu.eq_of_mem_iff hlist fun k => (hk k).trans (hmem k).symm

/-- The agreement that the manual states is that of the counts with the tally. -/
theorem State.referencesAgree_iff {s : State} (hl : s.pt.lawful) : s.referencesAgree ↔ s.tallied := by
  constructor
  · rintro ⟨hexits, hsets, hroutes, hnames, hpins⟩
    refine ⟨⟨fun e he => ?_, fun p hp => ?_, ⟨fun t ht => ?_, fun t ht => ?_, fun k x hx => ?_, fun i hi => ?_⟩⟩, fun p hp hb => ?_⟩
    · obtain ⟨hr, hm, hu, hp⟩ := hexits e he
      obtain ⟨hsorted, hmem⟩ := (PathTable.users_eq hl).mp hu
      refine ⟨hr, hp, ?_, hsorted, hmem⟩
      rw [hm, hu, List.length_map, List.countP_eq_length_filter]
    · obtain ⟨hr, hb, hp⟩ := hsets p hp
      exact ⟨hr, hp, hb⟩
    · obtain ⟨r, hr, he⟩ := List.countP_pos_iff.mp ht
      exact beq_iff_eq.mp he ▸ hroutes r hr
    · obtain ⟨j, hj, he⟩ := List.countP_pos_iff.mp ht
      exact hpins j hj t (beq_iff_eq.mp he)
    · obtain ⟨p, hp, -, hx⟩ := hx
      obtain ⟨m, hm, rfl⟩ := List.mem_map.mp hx
      exact (hnames p hp).1 m hm
    · obtain ⟨p, hp, he⟩ := List.countP_pos_iff.mp hi
      exact ((hnames p hp).2 i (beq_iff_eq.mp he)).2
    · exact ((hnames p hp).2 p.id hb).1 rfl
  · rintro ⟨⟨hexits, hsets, hstand⟩, hself⟩
    refine ⟨fun e he => ?_, fun p hp => ?_, fun r hr => ?_, fun p hp => ⟨fun m hm => ?_, fun b hb => ⟨?_, ?_⟩⟩, fun j hj t ht => ?_⟩
    · have hu := hexits e he
      have husers := (PathTable.users_eq hl).mpr ⟨hu.sorted, hu.users⟩
      refine ⟨hu.routes, ?_, husers, hu.pins⟩
      rw [hu.count, husers, List.length_map, List.countP_eq_length_filter]
    · have hu := hsets p hp
      exact ⟨hu.routes, hu.backups, hu.pins⟩
    · exact hstand.routes _ (List.countP_pos_iff.mpr ⟨r, hr, beq_self_eq_true _⟩)
    · exact hstand.members p.id m.exit ⟨p, hp, rfl, List.mem_map_of_mem hm⟩
    · rintro rfl
      exact hself p hp hb
    · exact hstand.backups b (List.countP_pos_iff.mpr ⟨p, hp, beq_iff_eq.mpr hb⟩)
    · exact hstand.pins t (List.countP_pos_iff.mpr ⟨j, hj, beq_iff_eq.mpr ht⟩)

/-! ### Operations that change no reference -/

/-- The second state has the routes, the exits and the path sets of the first, and as many pins on each target. -/
structure State.sameReferences (s t : State) : Prop where
  routes : t.rs.routes = s.rs.routes
  exits : t.pt.exits = s.pt.exits
  sets : t.pt.sets = s.pt.sets
  pins : t.je.pins = s.je.pins

theorem State.sameReferences_refl (s : State) : s.sameReferences s := ⟨rfl, rfl, rfl, rfl⟩

theorem State.sameReferences_trans {s t u : State} (h : s.sameReferences t) (k : t.sameReferences u) : s.sameReferences u :=
  ⟨k.routes.trans h.routes, k.exits.trans h.exits, k.sets.trans h.sets, k.pins.trans h.pins⟩

theorem State.tallied_congr {s t : State} (h : s.tallied) (k : s.sameReferences t) : t.tallied := by
  have hroutes : t.rs.routesTo = s.rs.routesTo := funext fun x => congrArg (List.countP _) k.routes
  rw [State.tallied, hroutes, k.pins]
  exact PathTable.tallies_congr h k.exits k.sets

section
variable (s : State)

theorem State.progressTo_sameReferences (ws : List Word) (p : Progress) : s.sameReferences (s.progressTo ws p) :=
  ⟨by simp, by simp, by simp, by simp⟩

theorem State.await_sameReferences (w : Word) (ps : List Word) : s.sameReferences (s.await w ps) :=
  ⟨by simp, by simp, by simp, by simp⟩

theorem State.settleCancel_sameReferences : s.sameReferences s.settleCancel := ⟨by simp, by simp, by simp, by simp⟩

end

/-! ### Pins (R34) -/

/-- The pin of the job that runs in the slot. -/
def Slot.pin (x : Slot) : Option Target := x.runningJob?.bind (·.spec.pin)

theorem JobEngine.pins_eq (je : JobEngine) (t : Target) : je.pins t =
    fours.countP (fun n => je.slots[n].pin == some t) + je.dropped.countP (·.spec.pin == some t) := by
  have hslots : ∀ x : Slot, (x.runningJob?.map fun j => j.spec.pin == some t).getD false = (x.pin == some t) := fun x => by
    cases x <;> rfl
  simp only [JobEngine.pins, JobEngine.jobs, List.countP_append, List.countP_filterMap, hslots]

/-- A count over the four slots when one of them changes. -/
theorem countP_fours_update {P Q : Fin 4 → Bool} {n : Fin 4} (h : ∀ m, m ≠ n → Q m = P m) :
    fours.countP Q + (if P n then 1 else 0) = fours.countP P + if Q n then 1 else 0 := by
  have hnodup : fours.Nodup := by decide
  have hothers : (fours.erase n).countP Q = (fours.erase n).countP P :=
    List.countP_congr fun m hm => by rw [h m (hnodup.mem_erase_iff.mp hm).1]
  rw [(List.perm_cons_erase (mem_fours n)).countP_eq, (List.perm_cons_erase (mem_fours n)).countP_eq, List.countP_cons,
    List.countP_cons, hothers]
  omega

section
variable (s : State) {n : Fin 4} {x : Slot}

theorem State.setSlot_pins (t : Target) : (s.setSlot n x).je.pins t + (if (s.slot n).pin = some t then 1 else 0) =
    s.je.pins t + if x.pin = some t then 1 else 0 := by
  have hcount := countP_fours_update (n := n) (P := fun m => (s.slot m).pin == some t)
    (Q := fun m => ((s.setSlot n x).slot m).pin == some t) fun m hm => by rw [s.setSlot_slot_ne x hm]
  simp only [State.setSlot_slot_self, beq_iff_eq] at hcount
  rw [JobEngine.pins_eq, JobEngine.pins_eq]
  have hdropped : (s.setSlot n x).je.dropped = s.je.dropped := rfl
  rw [hdropped]
  simp only [State.slot] at hcount ⊢
  omega

/-- A slot that keeps its pin. -/
theorem State.setSlot_pins_same (h : x.pin = (s.slot n).pin) : (s.setSlot n x).je.pins = s.je.pins := by
  funext t
  have hpins := s.setSlot_pins (n := n) (x := x) t
  rw [h] at hpins
  omega

theorem State.setSlot_sameReferences (h : x.pin = (s.slot n).pin) : s.sameReferences (s.setSlot n x) :=
  ⟨rfl, rfl, rfl, s.setSlot_pins_same h⟩

end

theorem Slot.pin_running {x : Slot} {j : Job} (h : x = .running j) : x.pin = j.spec.pin := h ▸ rfl

theorem JobEngine.finishDropped_pins (je : JobEngine) (taken : Job → Bool) : (je.finishDropped taken).pins = je.pins := by
  have hspec : ∀ j : Job, (if taken j then { j with step := StepState.none } else j).spec = j.spec := fun j => by split <;> rfl
  funext t
  rw [JobEngine.pins_eq, JobEngine.pins_eq]
  simp only [JobEngine.finishDropped, List.countP_map, Function.comp_def, hspec]

/-! ### The jobs' own operations (R140, R143, R145) -/

section
variable (s : State)

theorem State.presentStep_sameReferences (together : Bool) : s.sameReferences (s.presentStep together) := by
  refine ⟨by simp, by simp, by simp, ?_⟩
  rcases s.presentStep_cases together with h | ⟨n, j, hj, -, -, -, -, hstep⟩
  · rw [h]
  · have hset := s.setSlot_pins_same (n := n) (x := .running { j with step := .waiting }) (Slot.pin_running hj).symm
    rcases hstep with ⟨f, a, -, h⟩ | ⟨y, z, -, h⟩ <;> rw [h] <;> exact hset

theorem State.beginEnding_sameReferences (n : Fin 4) : s.sameReferences (s.beginEnding n) := by
  refine ⟨by simp, by simp, by simp, ?_⟩
  rcases s.beginEnding_cases n with ⟨j, o, t, -, -, -, -, h⟩ | ⟨j, o, hj, -, -, hp, h⟩ | h <;> rw [h]
  · rfl
  · rw [State.post_je]
    exact s.setSlot_pins_same ((Slot.pin_running hj).trans hp).symm

theorem State.finishStep_sameReferences {n : Fin 4} {j k : Job} (hj : s.slot n = .running j) (hk : k.spec = j.spec) :
    s.sameReferences (s.finishStep n k) := by
  have hslot : s.sameReferences (s.setSlot n (.running { k with step := .none })) :=
    s.setSlot_sameReferences ((congrArg JobSpec.pin hk).trans (Slot.pin_running hj).symm)
  exact State.sameReferences_trans (State.sameReferences_trans (State.sameReferences_trans hslot
    (State.beginEnding_sameReferences _ n)) (State.settleCancel_sameReferences _)) (State.presentStep_sameReferences _ _)

theorem State.withdrawStep_sameReferences (n : Fin 4) : s.sameReferences (s.withdrawStep n) := by
  refine ⟨by simp, by simp, by simp, ?_⟩
  unfold State.withdrawStep
  split
  · rename_i j hj
    have hset := s.setSlot_pins_same (n := n) (x := .running { j with step := .none }) (Slot.pin_running hj).symm
    split
    · dsimp only
      split <;> exact hset
    · rfl
  · rfl

theorem State.decideCancelled_sameReferences (n : Fin 4) : s.sameReferences (s.decideCancelled n) := by
  unfold State.decideCancelled
  split
  · rename_i j hj
    exact s.setSlot_sameReferences (Slot.pin_running hj).symm
  · exact s.sameReferences_refl

theorem State.takeStep_sameReferences : s.sameReferences s.takeStep := by
  unfold State.takeStep
  split
  · exact s.sameReferences_refl
  · rename_i n _
    split
    · rename_i j hj
      have hset := s.setSlot_pins_same (n := n) (x := .running { j with step := .taken }) (Slot.pin_running hj).symm
      split
      · dsimp only
        split
        · split
          · exact ⟨rfl, rfl, rfl, hset⟩
          · exact s.sameReferences_refl
        · split
          · exact ⟨rfl, rfl, rfl, hset⟩
          · exact s.sameReferences_refl
      · exact s.sameReferences_refl
    · exact s.sameReferences_refl

end

end Sys2Proof.Machine
end

section
/-! PROOFS. The agreement of references under the changes of the route table, and under the rows (R20 to R23, R32, R34). -/

namespace Sys2Proof.Machine

-- The proofs are elaborated one after another: each thread counts against the memory in which the text is checked.
set_option Elab.async false

/-! ### The number of routes to a target -/

section
variable {rs : RouteStore} {r : Route}

theorem RouteStore.withRoute_routesTo (t : Target) :
    (rs.withRoute r).routesTo t = rs.routesTo t + if r.target = t then 1 else 0 := by
  show (insertRoute r rs.routes).countP _ = _
  rw [(insertRoute_perm r rs.routes).countP_eq, List.countP_cons, RouteStore.routesTo]
  simp only [beq_iff_eq]

variable (hl : rs.lawful) (hr : r ∈ rs.routes)
include hl hr

theorem RouteStore.withoutRoute_routesTo (t : Target) :
    (rs.withoutRoute r).routesTo t + (if r.target = t then 1 else 0) = rs.routesTo t := by
  have ⟨hsorted, _⟩ := hl
  rw [RouteStore.routesTo, RouteStore.routesTo, ← (filter_ident_perm hsorted hr).countP_eq, List.countP_cons]
  simp only [beq_iff_eq]
  rfl

theorem RouteStore.updRoute_routesTo (f : Route → Route) (t : Target) :
    (rs.updRoute r.ident f).routesTo t + (if r.target = t then 1 else 0) =
      rs.routesTo t + if (f r).target = t then 1 else 0 := by
  have ⟨hsorted, _⟩ := hl
  have hothers : ((r :: rs.routes.filter (·.ident != r.ident)).map fun x => if x.ident == r.ident then f x else x) =
      f r :: rs.routes.filter (·.ident != r.ident) := by
    rw [List.map_cons, beq_self_eq_true, if_pos rfl]
    refine congrArg _ ((List.map_congr_left fun x hx => ?_).trans (List.map_id _))
    exact if_neg (by simpa using (List.mem_filter.mp hx).2)
  have hperm := filter_ident_perm hsorted hr
  rw [RouteStore.routesTo, RouteStore.routesTo, RouteStore.updRoute, ← (hperm.map _).countP_eq, hothers, ← hperm.countP_eq,
    List.countP_cons, List.countP_cons]
  simp only [beq_iff_eq]
  omega

end

theorem RouteStore.updRoute_routesTo_same (rs : RouteStore) (i : Identity) {f : Route → Route}
    (hf : ∀ r, (f r).target = r.target) : (rs.updRoute i f).routesTo = rs.routesTo := by
  have hsame : ∀ r : Route, (if r.ident == i then f r else r).target = r.target := fun r => by
    split
    · exact hf r
    · rfl
  funext t
  show (rs.routes.map _).countP _ = rs.routes.countP _
  simp only [List.countP_map, Function.comp_def, hsame]

/-! ### The changes of the route table -/

theorem State.tallied_of {u : State} {pt : PathTable} {routes pins : Target → Nat} (h : pt.tallies routes pins)
    (he : u.pt.exits = pt.exits) (hs : u.pt.sets = pt.sets) (hr : ∀ t, u.rs.routesTo t = routes t)
    (hp : ∀ t, u.je.pins t = pins t) : u.tallied := by
  rw [State.tallied, funext hr, funext hp]
  exact PathTable.tallies_congr h he hs

theorem PathTable.releaseRoute_tallies {pt : PathTable} {routes pins : Target → Nat} (h : pt.tallies routes pins) (t : Target) :
    (pt.releaseRoute t).tallies (Function.update routes t (routes t - 1)) pins :=
  PathTable.countRoute_tallies h fun hpos => h.agrees.stand.routes t (Nat.lt_of_lt_of_le hpos (Nat.sub_le _ _))

section
variable {s : State} (h : s.tallied) {r : Route}
include h

/-- A route comes, with its reference (R9, R20). -/
theorem State.insertRoute_tallied (hs : s.pt.stands r.target = true) :
    ((s.setPt (s.pt.countRoute (· + 1) r.target)).insertRoute r).tallied := by
  refine State.tallied_of (PathTable.countRoute_tallies h (f := (· + 1)) fun _ => hs) (by simp) (by simp) (fun t => ?_) fun t => by simp
  have hroutes : ((s.setPt (s.pt.countRoute (· + 1) r.target)).insertRoute r).rs.routesTo t = (s.rs.withRoute r).routesTo t := by
    simp only [State.insertRoute_eq, RouteStore.routesTo, State.evalWatermark_routes]
    rfl
  rw [hroutes, RouteStore.withRoute_routesTo]
  by_cases ht : t = r.target
  · simp [ht]
  · simp [ht, Ne.symm ht]

variable (hl : s.rs.lawful) (hr : r ∈ s.rs.routes)
include hl hr

/-- A route goes, and its reference with it (R10, R20). -/
theorem State.withdrawRoute_tallied : (s.withdrawRoute r).tallied := by
  refine State.tallied_of (PathTable.releaseRoute_tallies h r.target) (by simp [State.withdrawRoute]) (by simp [State.withdrawRoute])
    (fun t => ?_) fun t => by simp
  have hroutes : (s.withdrawRoute r).rs.routesTo t = (s.rs.withoutRoute r).routesTo t := by
    simp only [State.withdrawRoute_eq, RouteStore.routesTo, State.evalWatermark_routes]
    rfl
  have hcount := RouteStore.withoutRoute_routesTo hl hr t
  rw [hroutes]
  by_cases ht : t = r.target
  · subst ht
    simp only [if_true, Function.update_self] at hcount ⊢
    omega
  · simpa [ht, Ne.symm ht] using hcount

/-- A route gets a new target, which it takes a reference on before it releases the old (R22, R138). -/
theorem State.retarget_tallied {f : Route → Route} (hs : s.pt.stands (f r).target = true) :
    ((s.setPt ((s.pt.countRoute (· + 1) (f r).target).releaseRoute r.target)).setRs (s.rs.updRoute r.ident f)).tallied := by
  refine State.tallied_of (PathTable.releaseRoute_tallies (PathTable.countRoute_tallies h (f := (· + 1)) fun _ => hs) r.target) rfl rfl
    (fun t => ?_) fun t => rfl
  have hcount := RouteStore.updRoute_routesTo hl hr f t
  show (s.rs.updRoute r.ident f).routesTo t = _
  by_cases hold : t = r.target
  · subst hold
    rw [Function.update_self]
    by_cases hnew : r.target = (f r).target
    · rw [← hnew, Function.update_self]
      simp only [hnew, if_true] at hcount ⊢
      omega
    · rw [Function.update_of_ne hnew]
      simp only [if_true, Ne.symm hnew, if_false] at hcount
      omega
  · rw [Function.update_of_ne hold]
    by_cases hnew : t = (f r).target
    · subst hnew
      simpa [Ne.symm hold] using hcount
    · simpa [hnew, Ne.symm hold, Ne.symm hnew] using hcount

end

end Sys2Proof.Machine
end

section
/-! PROOFS. Every step keeps the agreement of references with what names the records (R31 to R34). -/

namespace Sys2Proof.Machine

-- The proofs are elaborated one after another: each thread counts against the memory in which the text is checked.
set_option Elab.async false

section
variable {s : State} (h : s.tallied)
include h

/-! ### What the rows of host commands share -/

theorem runCommand_tallied (code : Nat) {body : List Word → State → Reply} (hb : ∀ ps, (body ps s).1.tallied) :
    (runCommand code body s).tallied :=
  runCommand_keeps h (fun t ws x ht => State.tallied_congr ht (t.progressTo_sameReferences ws x))
    (fun w ps => State.tallied_congr h (s.await_sameReferences w ps)) hb

theorem withIdentity_tallied {α : Type} (ps : List Word) (others : Nat) (more : Identity → Option α)
    {work : Identity → α → Reply} (hw : ∀ i a, (work i a).1.tallied) : (withIdentity ps others more s work).1.tallied := by
  rcases withIdentity_cases ps others more s work with he | ⟨i, a, -, -, -, he⟩ <;> rw [he]
  · exact h
  · exact hw i a

theorem State.withReference_tallied (refers : Bool) {work : State → Reply}
    (hw : ∀ t : State, t.tallied → t.rs = s.rs → (work t).1.tallied) : (s.withReference refers work).1.tallied := by
  rcases s.withReference_cases refers work with ⟨-, he⟩ | ⟨-, -, he⟩ | ⟨-, -, he⟩ <;> rw [he]
  · exact hw s h rfl
  · exact hw _ (State.tallied_congr h ⟨rfl, rfl, rfl, rfl⟩) rfl
  · exact State.tallied_congr h ⟨rfl, rfl, rfl, rfl⟩

theorem State.withReads_tallied (ports : List (Fin 64)) {work : List Bool → State → Reply}
    (hw : ∀ reads m, ports.length ≤ reads.length → (work reads (s.setPmon m)).1.tallied) :
    (s.withReads ports work).1.tallied := by
  rcases s.withReads_cases ports work with ⟨hlen, he⟩ | ⟨-, he⟩ <;> rw [he]
  · exact hw _ _ hlen
  · exact State.tallied_congr h ⟨rfl, rfl, rfl, rfl⟩

/-- A command that changes the Path Table's records alone. -/
theorem State.setPt_tallied {pt : PathTable} (hpt : s.pt.tallies s.rs.routesTo s.je.pins → pt.tallies s.rs.routesTo s.je.pins) :
    (s.setPt pt).tallied := hpt h

/-! ### The route commands (R21, R22, R23) -/

theorem addRoute_tallied (i : Identity) (a : Target × RouteClass × BitVec 16) : (addRoute i a s).1.tallied := by
  unfold addRoute
  rcases s.pt.takeRoute_cases a.1 with ⟨-, he⟩ | ⟨hs, he⟩ <;> rw [he]
  · exact h
  · dsimp only
    split
    · exact h
    · split
      · exact h
      · exact State.insertRoute_tallied h (r := ⟨i, a.1, a.2.1, a.2.2, false, 0⟩) hs

theorem routeAddWork_tallied (ps : List Word) : (routeAddWork ps s).1.tallied :=
  withIdentity_tallied h ps _ _ fun i a => State.withReference_tallied h _ fun _ ht _ => addRoute_tallied ht i a

theorem changeRoute_tallied (hl : s.rs.lawful) {i : Identity} {r : Route} (hr : s.rs.find? i = some r) (c : RouteChange) :
    (changeRoute i c r s).1.tallied := by
  obtain ⟨hmem, rfl⟩ := RouteStore.find?_some hr
  have htarget : ∀ x, (c.apply x).target = c.target.getD x.target := fun x => by
    unfold RouteChange.apply
    dsimp only
    split <;> rfl
  unfold changeRoute
  cases hc : c.target with
  | none =>
    have href : c.references r.target s.pt = some s.pt := by simp only [RouteChange.references, hc]
    rw [href]
    refine State.tallied_of h rfl rfl (fun t => ?_) fun _ => rfl
    exact congrFun (RouteStore.updRoute_routesTo_same s.rs r.ident fun x => by rw [htarget, hc]; rfl) t
  | some t =>
    rcases s.pt.takeRoute_cases t with ⟨-, he⟩ | ⟨hs, he⟩
    · have href : c.references r.target s.pt = none := by simp only [RouteChange.references, hc, he, Option.map_none]
      rw [href]
      exact h
    · have href : c.references r.target s.pt = some ((s.pt.countRoute (· + 1) t).releaseRoute r.target) := by
        simp only [RouteChange.references, hc, he, Option.map_some]
      have hnew : (c.apply r).target = t := by rw [htarget, hc]; rfl
      rw [href]
      subst hnew
      exact State.retarget_tallied h hl hmem hs

theorem routeChangeWork_tallied (hl : s.rs.lawful) (ps : List Word) : (routeChangeWork ps s).1.tallied := by
  refine withIdentity_tallied h ps _ _ fun i c => ?_
  split
  · exact h
  · rename_i r hr
    exact State.withReference_tallied h _ fun t ht hrs => changeRoute_tallied ht (hrs ▸ hl) (hrs ▸ hr) c

theorem routeDropWork_tallied (hl : s.rs.lawful) (ps : List Word) : (routeDropWork ps s).1.tallied := by
  refine withIdentity_tallied h ps _ _ fun i _ => ?_
  split
  · exact h
  · rename_i r hr
    exact State.withReference_tallied h _ fun t ht hrs =>
      State.withdrawRoute_tallied ht (hrs ▸ hl) (hrs ▸ (RouteStore.find?_some hr).1)

/-! ### The exit commands (R39 to R42) -/

theorem exitCreateWork_tallied (ps : List Word) : (exitCreateWork ps s).1.tallied := by
  unfold exitCreateWork
  split
  · exact h
  · rename_i e he
    split
    · exact h
    · rename_i hfree
      simp only [exitCreateFields, Option.bind_eq_bind, Option.bind_eq_some_iff, Option.some.injEq] at he
      obtain ⟨id, -, en, -, port, -, pres, -, vlan, -, mtu, -, rfl⟩ := he
      exact PathTable.insertExit_tallies h (by simpa using hfree) rfl rfl rfl rfl

theorem exitDeleteWork_tallied (ps : List Word) : (exitDeleteWork ps s).1.tallied := by
  unfold exitDeleteWork
  split
  · exact h
  · split
    · exact h
    · rename_i e he
      split
      · exact h
      · rename_i hr
        exact PathTable.filterExits_tallies h he (Nat.eq_zero_of_not_pos hr)

end

/-- What MEMBER ADD's checks leave: a set that the exit, an ACTIVE one, is no member of. -/
theorem memberAddRefusal_names {pt : PathTable} {id x : Nat} (hr : memberAddRefusal pt id x = none) :
    ∃ p, pt.set? id = some p ∧ x ∉ p.exits ∧ pt.stands (.exit x) = true := by
  cases hp : pt.set? id with
  | none => rw [memberAddRefusal_absent hp] at hr; cases hr
  | some p =>
    cases he : pt.exit? x with
    | none => rw [memberAddRefusal_noTarget hp he] at hr; cases hr
    | some e =>
      obtain ⟨hm, -⟩ := memberAddRefusal_eq_none hr p hp
      exact ⟨p, rfl, PathSet.member?_eq_none.mp hm, by rw [PathTable.stands, he]; rfl⟩

theorem PathTable.visitUsers_tallies {pt : PathTable} {routes pins : Target → Nat} (h : pt.tallies routes pins)
    (reads : List Bool) (x : Nat) : (pt.visitUsers reads x).tallies routes pins := by
  unfold PathTable.visitUsers
  split
  · exact h
  · rename_i e he
    clear he
    induction e.users.zip reads generalizing pt with
    | nil => exact h
    | cons y ys ih => exact ih (PathTable.updSet_tallies h y.1 fun p => p.memberUpdate_sameUse x _)

section
variable {s : State} (h : s.tallied)
include h

/-- A write that leaves an exit's ID, counts and user list, and the visits of its users. -/
theorem changeExit_tallied {c : Option ExitWrite} (hc : ∀ w, c = some w → ∀ e : Exit, (w.write e).id = e.id ∧
    (w.write e).routeRefs = e.routeRefs ∧ (w.write e).pinRefs = e.pinRefs ∧ (w.write e).memberRefs = e.memberRefs ∧
    (w.write e).users = e.users) : (changeExit c s).1.tallied := by
  unfold changeExit
  split
  · exact h
  · rename_i w
    split
    · exact h
    · exact State.withReads_tallied h _ fun reads m _ =>
        PathTable.visitUsers_tallies (PathTable.updExit_tallies h w.id (hc w rfl)) reads w.id

theorem exitChangeWork_tallied (ps : List Word) : (exitChangeWork ps s).1.tallied :=
  changeExit_tallied h fun w hw e => by
    obtain ⟨x, -, rfl⟩ := Option.map_eq_some_iff.mp hw
    exact ⟨rfl, rfl, rfl, rfl, rfl⟩

theorem exitAdminWork_tallied (enabled : Bool) (ps : List Word) : (changeExit (exitAdminWrite enabled ps) s).1.tallied :=
  changeExit_tallied h fun w hw e => by
    obtain ⟨id, -, rfl⟩ := Option.map_eq_some_iff.mp hw
    exact ⟨rfl, rfl, rfl, rfl, rfl⟩

/-! ### The path set, member and map commands (R44 to R50, R67) -/

theorem setCreateWork_tallied (ps : List Word) : (setCreateWork ps s).1.tallied := by
  unfold setCreateWork
  split
  · exact h
  · rename_i c _
    split
    · exact h
    · rename_i hr
      refine State.withReads_tallied h _ fun reads m hlen => SetCreate.apply_tallies hr ?_ h
      obtain ⟨-, -, hexits⟩ := SetCreate.refusal_names hr
      rw [SetCreate.ports, hr] at hlen
      obtain ⟨hcount, -⟩ := PathTable.flatMap_portOf (pt := s.pt) (l := c.entries) fun x hx =>
        Option.isSome_iff_ne_none.mp (hexits x.1 (List.mem_map_of_mem hx))
      exact hcount ▸ hlen

theorem setChangeWork_tallied (hl : s.pt.lawful) (ps : List Word) : (setChangeWork ps s).1.tallied := by
  unfold setChangeWork
  split
  · exact h
  · split
    · exact h
    · rename_i hself
      split
      · exact h
      · rename_i p hp
        split
        · exact h
        · rename_i hb
          refine PathTable.setChange_tallies h hl hp (by simpa using hself) fun b hc => ?_
          simpa [hc, PathTable.stands, Option.isSome_iff_ne_none] using hb

theorem setDeleteWork_tallied (hl : s.pt.lawful) (ps : List Word) : (setDeleteWork ps s).1.tallied := by
  unfold setDeleteWork
  split
  · exact h
  · split
    · exact h
    · rename_i p hp
      split
      · exact h
      · rename_i hr
        exact PathTable.deleteSet_tallies h hl hp (Nat.eq_zero_of_not_pos hr)

theorem memberAddWork_tallied (hl : s.pt.lawful) (ps : List Word) : (memberAddWork ps s).1.tallied := by
  unfold memberAddWork
  split
  · exact h
  · rename_i id x _
    split
    · exact h
    · rename_i hr
      refine State.withReads_tallied h _ fun reads m _ => ?_
      obtain ⟨p, hp, hmember, hexit⟩ := memberAddRefusal_names hr
      exact PathTable.addMember_tallies h hl hp (m := s.pt.newMember x (reads.headD false)) hmember hexit

theorem memberRemoveWork_tallied (hl : s.pt.lawful) (ps : List Word) : (memberRemoveWork ps s).1.tallied := by
  unfold memberRemoveWork
  split
  · split
    · exact h
    · rename_i m hm
      obtain ⟨p, hp, hm⟩ := Option.bind_eq_some_iff.mp hm
      obtain ⟨hmem, rfl⟩ := PathSet.member?_some hm
      exact PathTable.removeMember_tallies h hl hp (List.mem_map_of_mem hmem)
  · exact h

theorem memberWeightWork_tallied (ps : List Word) : (memberWeightWork ps s).1.tallied := by
  unfold memberWeightWork
  split
  · split
    · exact h
    · split
      · exact h
      · exact PathTable.updSet_tallies h _ fun p => p.reweigh_sameUse _ _
  · exact h

theorem setRefillWork_tallied (ps : List Word) : (setRefillWork ps s).1.tallied := by
  unfold setRefillWork
  split
  · exact h
  · split
    · exact h
    · exact PathTable.updSet_tallies h _ fun p => p.fill_sameUse

end

end Sys2Proof.Machine
end

section
/-! PROOFS. The agreement of references under the rows of the jobs, the claims and RESTART, and under the step (R34, R138,
R144). -/

namespace Sys2Proof.Machine

-- The proofs are elaborated one after another: each thread counts against the memory in which the text is checked.
set_option Elab.async false

/-! ### JOB START, JOB CANCEL and COLLECT (R132, R145, R159) -/

section
variable {s : State} (h : s.tallied)
include h

/-- A job that starts in an IDLE slot, with the pin that it has taken. -/
theorem State.startJob_tallied {spec : JobSpec} {pt : PathTable} (hpt : spec.takePin s.pt = some pt) {n : Fin 4}
    (hn : s.slot n = .idle) : ((s.setPt pt).setSlot n (.running spec.start)).tallied := by
  have hidle : (s.slot n).pin = none := by rw [hn]; rfl
  have hpins := (s.setPt pt).setSlot_pins (n := n) (x := .running spec.start)
  have hslot : ((s.setPt pt).slot n).pin = none := hidle
  simp only [hslot, reduceCtorEq, if_false, Nat.add_zero] at hpins
  cases hp : spec.pin with
  | none =>
    rw [JobSpec.takePin_none hp] at hpt
    obtain rfl := Option.some.inj hpt
    exact State.tallied_congr h (s.setSlot_sameReferences (Eq.trans hp hidle.symm))
  | some t =>
    rcases s.pt.takePin_cases t with ⟨hs, -⟩ | ⟨hs, -⟩
    · rw [JobSpec.takePin_refused hp hs] at hpt
      cases hpt
    · rw [JobSpec.takePin_taken hp hs] at hpt
      obtain rfl := Option.some.inj hpt
      refine State.tallied_of (PathTable.countPin_tallies h (f := (· + 1)) fun _ => hs) rfl rfl (fun _ => rfl) fun x => ?_
      have hx := hpins x
      have hstart : (Slot.running spec.start).pin = some t := hp
      rw [hstart] at hx
      rw [hx]
      by_cases hxt : x = t
      · simp [hxt]
      · simp [hxt, Ne.symm hxt]

theorem jobStartWork_tallied (ps : List Word) : (jobStartWork ps s).1.tallied := by
  unfold jobStartWork
  split
  · exact h
  · rename_i spec _
    split
    · exact h
    · split
      · exact h
      · rename_i n hn
        split
        · exact h
        · rename_i pt hpt
          exact State.tallied_congr (State.startJob_tallied h hpt (by simpa using List.find?_some hn))
            (State.presentStep_sameReferences _ _)

theorem jobCancelWork_tallied (ps : List Word) : (jobCancelWork ps s).1.tallied := by
  unfold jobCancelWork
  split
  · exact h
  · rename_i n _
    split
    · split
      · exact h
      · refine State.tallied_congr h (State.sameReferences_trans ?_ (State.presentStep_sameReferences _ _))
        exact State.sameReferences_trans (State.sameReferences_trans (s.withdrawStep_sameReferences n)
          (State.decideCancelled_sameReferences _ n)) (State.beginEnding_sameReferences _ n)
    · exact h

/-- COLLECT frees the slot of a JOB record, which is ENDED and so holds no pin. -/
theorem collectWork_tallied (ha : s.attentionLawful) (ps : List Word) : (collectWork ps s).1.tallied := by
  unfold collectWork
  split
  · exact h
  · rename_i r rest hlist
    have hau : (s.setAu { s.au with list := rest }).tallied := h
    cases r with
    | job n k o v m a =>
      obtain ⟨-, -, hjob⟩ := ha
      obtain ⟨j, hj, -⟩ := hjob n k o v m a (by rw [hlist]; exact List.mem_cons_self)
      have hpin : Slot.idle.pin = ((s.setAu { s.au with list := rest }).slot n).pin := by
        show none = (s.slot n).pin
        rw [hj]
        rfl
      exact State.tallied_congr hau (State.setSlot_sameReferences _ hpin)
    | port | lane | space => exact hau

/-! ### The failover pass, the lookup and the refill (R81, R116, R139) -/

theorem State.visitPass_tallied (v : Visit) : (s.visitPass v).tallied := by
  have hvisit : ∀ (pt : PathTable) live place, pt.tallies s.rs.routesTo s.je.pins →
      (pt.visit live place).tallies s.rs.routesTo s.je.pins := fun pt live place ht => by
    unfold PathTable.visit
    split
    · exact ht
    · exact PathTable.updSet_tallies ht _ fun p => p.memberUpdate_sameUse _ _
  have hpass : ∀ (t : State) x, t.tallied → (t.passTo v x).tallied := fun t x ht => by
    unfold State.passTo
    split <;> exact ht
  rcases s.visitPass_cases v with ⟨-, he⟩ | ⟨place, -, ⟨-, he⟩ | ⟨-, he⟩⟩ <;> rw [he]
  · refine hpass _ _ (State.tallied_congr h ⟨rfl, ?_, ?_, rfl⟩) <;>
    · simp only [State.setPt_pt]
      split <;> rfl
  · refine hpass _ _ (PathTable.tallies_congr (pt := PathTable.visit _ (s.port v.port).live place) ?_ rfl rfl)
    exact hvisit { s.pt.withdraw (.visit v.port) with taken := none } _ place (PathTable.tallies_congr h rfl rfl)
  · exact State.tallied_congr h ⟨rfl, rfl, rfl, rfl⟩

theorem State.lookupClaim_tallied (k : Lookup) : (s.lookupClaim k).tallied := by
  have hmark : ∀ r, (s.rs.markMatch k.ask.mark r).routesTo = s.rs.routesTo := fun r => by
    unfold RouteStore.markMatch
    split
    · exact RouteStore.updRoute_routesTo_same _ _ fun _ => rfl
    · rfl
  have hroutes : (s.lookupClaim k).rs.routesTo = s.rs.routesTo := by
    unfold State.lookupClaim
    dsimp only
    split
    · simp
    · split
      · simp
      · rename_i r _
        split <;> simp [hmark r]
  exact State.tallied_of h (by simp) (by simp) (fun t => congrFun hroutes t) fun t => by simp

end

theorem PathTable.refill_tallies {pt : PathTable} {routes pins : Target → Nat} (h : pt.tallies routes pins) (j : Job)
    (first last : Nat) : (pt.refill j first last).1.tallies routes pins := by
  unfold PathTable.refill
  dsimp only
  split
  · exact h
  · exact PathTable.updSet_tallies h _ fun p => p.fill_sameUse

theorem PathTable.refill_spec (pt : PathTable) (j : Job) (first last : Nat) : (pt.refill j first last).2.spec = j.spec := by
  unfold PathTable.refill
  dsimp only
  split <;> split <;> rfl

/-! ### The steps of a SURVEY (R133 to R138) -/

section
variable {s : State} (h : s.tallied) (hl : s.rs.lawful)

theorem State.survey_spec (s : State) (j : Job) (f : Filter) (a : Action) : (s.survey j f a).2.spec = j.spec := by
  unfold State.survey
  split <;> rfl

theorem State.makeStep_spec {s : State} {j k : Job} {f : Filter} {a : Action} (hk : (s.makeStep j f a).2 = some k) :
    k.spec = j.spec := by
  rcases s.makeStep_cases j f a with ⟨-, he⟩ | ⟨-, -, he⟩ | ⟨-, -, he⟩ <;> rw [he] at hk
  · obtain rfl := Option.some.inj hk
    exact State.survey_spec _ j f a
  · obtain rfl := Option.some.inj hk
    exact State.survey_spec _ j f a
  · cases hk

include h hl

theorem State.applyAction_tallied {a : Action} (ha : ∀ t, a = .repoint t → s.pt.stands t = true) {r : Route}
    (hr : r ∈ s.rs.routes) : (s.applyAction a r).tallied := by
  have hkept : ∀ f : Route → Route, (∀ x, (f x).target = x.target) → (s.setRs (s.rs.updRoute r.ident f)).tallied := fun f hf =>
    State.tallied_of h rfl rfl (fun t => congrFun (RouteStore.updRoute_routesTo_same s.rs r.ident hf) t) fun _ => rfl
  cases a with
  | count => exact h
  | retire => exact State.withdrawRoute_tallied h hl hr
  | repoint t => exact State.retarget_tallied h hl hr (f := fun x => { x with target := t }) (ha t rfl)
  | sweep =>
    unfold State.applyAction
    dsimp only
    split
    · exact hkept _ fun _ => rfl
    · exact State.withdrawRoute_tallied h hl hr
  | clearMarks => exact hkept _ fun _ => rfl

theorem State.survey_tallied (j : Job) (f : Filter) {a : Action} (ha : ∀ t, a = .repoint t → s.pt.stands t = true) :
    (s.survey j f a).1.tallied := by
  unfold State.survey
  split
  · exact h
  · rename_i r hr
    dsimp only
    split
    · exact State.applyAction_tallied h hl ha (RouteStore.surveyed_mem hr)
    · exact h

/-- The step of a job whose pin stands: its own new target is ACTIVE. -/
theorem State.makeStep_tallied {j : Job} {f : Filter} {a : Action} (hj : j ∈ s.je.jobs) (hs : j.spec = .survey f a) :
    (s.makeStep j f a).1.tallied := by
  have ha : ∀ t, a = .repoint t → s.pt.stands t = true := fun t ht =>
    h.agrees.stand.pins t (List.countP_pos_iff.mpr ⟨j, hj, by rw [hs, ht]; exact beq_self_eq_true _⟩)
  have hstands : ∀ c t, (s.pt.withdraw c).stands t = s.pt.stands t := fun c => PathTable.stands_congr rfl rfl
  rcases s.makeStep_cases j f a with ⟨-, he⟩ | ⟨-, -, he⟩ | ⟨-, -, he⟩ <;> rw [he]
  · exact State.survey_tallied (s := s.setRs { s.rs with fairness := 0 }) h hl j f ha
  · exact State.survey_tallied (s := (s.setRs { s.rs with fairness := 0 }).setPt (s.pt.withdraw .reference))
      (State.tallied_congr h ⟨rfl, rfl, rfl, rfl⟩) hl j f fun t ht => (hstands _ t).trans (ha t ht)
  · exact State.tallied_congr h ⟨rfl, rfl, rfl, rfl⟩

end

/-! ### The rows -/

section
variable {s : State} (h : s.tallied)
include h

theorem State.finishDropped_tallied (taken : Job → Bool) : (s.setJe (s.je.finishDropped taken)).tallied :=
  State.tallied_congr h ⟨rfl, rfl, rfl, s.je.finishDropped_pins taken⟩

theorem execVisitClaim_tallied (p : Fin 64) : leadsTo State.tallied (execVisitClaim p s) := by
  unfold execVisitClaim
  split
  · rw [leadsTo_next]
    split
    · exact State.visitPass_tallied h _
    · exact h
  · split
    · exact leadsTo_next.mpr h
    · rw [leadsTo_next]
      split
      · exact State.visitPass_tallied h _
      · exact h

theorem execLookupClaim_tallied : leadsTo State.tallied (execLookupClaim s) := by
  unfold execLookupClaim
  split
  · rw [leadsTo_next]
    split
    · exact h
    · refine State.lookupClaim_tallied ?_ _
      split <;> exact h
  · exact leadsTo_next.mpr h

theorem execStepClaim_tallied (hl : s.rs.lawful) : leadsTo State.tallied (execStepClaim s) := by
  unfold execStepClaim
  split
  · split
    · exact leadsTo_next.mpr h
    · rename_i j hj
      have hmem : j ∈ s.je.jobs := JobEngine.mem_jobs.mpr (.inr (List.mem_of_find?_eq_some hj))
      split
      · rename_i f a hs
        rw [leadsTo_next]
        split
        · have hmade := State.makeStep_tallied h hl hmem hs
          cases (s.makeStep j f a).2 with
          | none => exact hmade
          | some k => exact State.finishDropped_tallied hmade _
        · exact h
      · exact leadsTo_next.mpr h
  · rename_i n _
    split
    · rename_i j hj
      have hmem : j ∈ s.je.jobs := JobEngine.mem_jobs.mpr (.inl ⟨n, hj⟩)
      split
      · rename_i f a hs
        rw [leadsTo_next]
        split
        · have hmade := State.makeStep_tallied h hl hmem hs
          have hslot : (s.makeStep j f a).1.slot n = .running j :=
            (congrArg (fun je : JobEngine => je.slots[n]) (s.makeStep_je j f a)).trans hj
          cases hk : (s.makeStep j f a).2 with
          | none => exact State.tallied_congr hmade (State.setSlot_sameReferences _ (Slot.pin_running hslot).symm)
          | some k => exact State.tallied_congr hmade (State.finishStep_sameReferences _ hslot (State.makeStep_spec hk))
        · exact h
      · exact leadsTo_next.mpr h
    · exact leadsTo_next.mpr h

theorem execRefillClaim_tallied : leadsTo State.tallied (execRefillClaim s) := by
  unfold execRefillClaim
  split
  · split
    · exact leadsTo_next.mpr h
    · rename_i j _
      split
      · rename_i first last _
        rw [leadsTo_next]
        split
        · have hfilled : (s.setPt (s.pt.refill j first last).1).tallied := PathTable.refill_tallies h j first last
          exact State.finishDropped_tallied hfilled _
        · exact h
      · exact leadsTo_next.mpr h
  · rename_i n _
    split
    · rename_i j hj
      split
      · rename_i first last _
        rw [leadsTo_next]
        split
        · have hfilled : (s.setPt ((s.pt.withdraw (.refill n)).refill j first last).1).tallied :=
            PathTable.refill_tallies (pt := s.pt.withdraw (.refill n)) (PathTable.tallies_congr h rfl rfl) j first last
          exact State.tallied_congr hfilled (State.finishStep_sameReferences _ hj (PathTable.refill_spec _ j first last))
        · exact h
      · exact leadsTo_next.mpr h
    · exact leadsTo_next.mpr h

/-- A pin is released with the ending of its job. -/
theorem State.endPinned_tallied {n : Fin 4} {j : Job} {t : Target} {o : JobOutcome} (hj : s.slot n = .running j)
    (hp : j.spec.pin = some t) (ho : j.outcome = some o) :
    ((s.setPt ((s.pt.withdraw (.pin n)).releasePin t)).endSlot n).tallied := by
  have hslot : (s.setPt ((s.pt.withdraw (.pin n)).releasePin t)).slot n = .running j := hj
  have hpins := (s.setPt ((s.pt.withdraw (.pin n)).releasePin t)).setSlot_pins (n := n) (x := .ended j)
  rw [State.endSlot_ended hslot ho]
  have hreleased : ((s.pt.withdraw (.pin n)).releasePin t).tallies s.rs.routesTo (Function.update s.je.pins t (s.je.pins t - 1)) :=
    PathTable.countPin_tallies (pt := s.pt.withdraw (.pin n)) (f := (· - 1)) (PathTable.tallies_congr h rfl rfl) fun hpos => by
      refine (PathTable.stands_congr (pt := s.pt) rfl rfl t).trans ?_
      exact h.agrees.stand.pins t (Nat.lt_of_lt_of_le hpos (Nat.sub_le _ _))
  refine State.tallied_of hreleased (by simp) (by simp) (fun x => by simp) fun x => ?_
  have hx := hpins x
  rw [Slot.pin_running hslot, hp] at hx
  rw [State.post_je]
  change _ + _ = s.je.pins x + _ at hx
  by_cases hxt : x = t
  · subst hxt
    simp only [if_true, Function.update_self, Slot.pin, Slot.runningJob?, Option.bind_none, reduceCtorEq, if_false] at hx ⊢
    omega
  · simpa [Slot.pin, Slot.runningJob?, hxt, Ne.symm hxt] using hx

theorem execPinClaim_tallied (n : Fin 4) : leadsTo State.tallied (execPinClaim n s) := by
  unfold execPinClaim
  split
  · rename_i j hj
    split
    · rename_i t hp
      rw [leadsTo_next]
      split
      · rename_i hcond
        simp only [Bool.and_eq_true, State.needsPin_eq hj, Option.isSome_iff_exists] at hcond
        obtain ⟨⟨-, ⟨⟨o, ho⟩, -⟩, -⟩, -⟩ := hcond
        exact State.tallied_congr (State.endPinned_tallied h hj hp ho) (State.sameReferences_trans
          (State.settleCancel_sameReferences _) (State.presentStep_sameReferences _ _))
      · exact h
    · exact leadsTo_next.mpr h
  · exact leadsTo_next.mpr h

end

/-! ### RESTART and the clearing (R182, R186) -/

theorem JobEngine.pins_nil {je : JobEngine} (h : je.jobs = []) (t : Target) : je.pins t = 0 := by
  rw [JobEngine.pins, h]
  rfl

/-- With the tables empty and no job, nothing names anything. -/
theorem State.tallied_empty {s : State} (hr : s.rs.routes = []) (he : s.pt.exits = []) (hs : s.pt.sets = [])
    (hj : s.je.jobs = []) : s.tallied := by
  have hroutes : ∀ t, ¬ 0 < s.rs.routesTo t := fun t => by rw [RouteStore.routesTo, hr]; exact Nat.lt_irrefl 0
  refine ⟨⟨fun e h => ?_, fun p h => ?_, ⟨fun t ht => absurd ht (hroutes t), fun t ht => ?_, fun k x hx => ?_, fun i hi => ?_⟩⟩,
    fun p h => ?_⟩
  · rw [he] at h; cases h
  · rw [hs] at h; cases h
  · rw [show (s.pt.tally s.rs.routesTo s.je.pins).pins t = 0 from JobEngine.pins_nil hj t] at ht
    cases ht
  · obtain ⟨p, h, -⟩ := hx
    rw [hs] at h; cases h
  · obtain ⟨p, h, -⟩ := List.countP_pos_iff.mp hi
    rw [hs] at h; cases h
  · rw [hs] at h; cases h

theorem restartWork_tallied {s : State} (h : s.tallied) (ps : List Word) : (restartWork ps s).1.tallied := by
  have hunits : s.restartUnits.tallied := State.tallied_congr h ⟨rfl, rfl, rfl, funext fun t => by
    rw [JobEngine.pins, State.restartUnits_jobs, List.countP_map]
    simp only [Function.comp_def, Job.withdrawn_spec]
    rfl⟩
  have hjobs : s.restartUnits.restartTables.je.jobs = [] := by
    simp [State.restartTables, State.restartUnits, JobEngine.restart, JobEngine.jobs, fours, JobEngine.reset, Slot.runningJob?]
  rcases restartWork_cases ps s with ⟨-, he⟩ | ⟨-, -, he⟩ | ⟨-, -, he⟩ <;> rw [he]
  · exact hunits
  · exact State.tallied_empty rfl rfl rfl hjobs
  · exact State.tallied_empty rfl rfl rfl hjobs

/-! ### The step -/

theorem State.tick_tallied {s : State} (h : s.tallied) : s.tick.tallied := by
  refine State.tallied_congr h (State.sameReferences_trans s.takeStep_sameReferences ?_)
  refine State.sameReferences_trans (t := s.takeStep.takeVisit) ⟨by simp, ?_, ?_, by simp⟩
    (State.sameReferences_trans (t := s.takeStep.takeVisit.takeRead) ⟨by simp, ?_, ?_, by simp⟩ ⟨rfl, rfl, rfl, rfl⟩)
  · rcases s.takeStep.takeVisit_cases with he | ⟨_, _, -, -, -, -, he⟩ <;> rw [he]
    rfl
  · rcases s.takeStep.takeVisit_cases with he | ⟨_, _, -, -, -, -, he⟩ <;> rw [he]
    rfl
  · rcases s.takeStep.takeVisit.takeRead_cases with he | ⟨_, _, _, _, _, -, -, -, -, -, -, he⟩ <;> rw [he]
    rfl
  · rcases s.takeStep.takeVisit.takeRead_cases with he | ⟨_, _, _, _, _, -, -, -, -, -, -, he⟩ <;> rw [he]
    rfl

end Sys2Proof.Machine
end

section
/-! PROOFS. Every step keeps the agreement of references with what names the records (R31 to R34). -/

namespace Sys2Proof.Machine

-- The proofs are elaborated one after another: each thread counts against the memory in which the text is checked.
set_option Elab.async false

/-- Nothing is named but by an ACTIVE record, and every count is the tally, while the blocks run. -/
def State.talliedRunning (s : State) : Prop := s.dev.phase = .running → s.tallied

/-! ### The rows while the blocks run -/

section
variable {s : State} (h : s.tallied)
include h

/-- A row that touches no route, record or job keeps the tally. -/
theorem exec_tallied_of_untouched {i : Instr} (hroutes : Part.routes ∉ touches i) (hrecords : Part.records ∉ touches i)
    (hje : Part.je ∉ touches i) : leadsTo State.tallied (exec i s) := fun t ht => by
  have hrs : t.rs.routes = s.rs.routes := exec_same ht hroutes
  have ⟨he, hs⟩ : t.pt.exits = s.pt.exits ∧ t.pt.sets = s.pt.sets := exec_same ht hrecords
  have hj : t.je = s.je := exec_same ht hje
  exact State.tallied_congr h ⟨hrs, he, hs, congrArg JobEngine.pins hj⟩

/-- The rows that touch a route, a record or a job, but for those that move the phase of the device. -/
theorem exec_tallied (hrs : s.rs.lawful) (hpt : s.pt.lawful) (ha : s.attentionLawful) {i : Instr} (hdev : Part.dev ∉ touches i) :
    leadsTo State.tallied (exec i s) := by
  have hcommand : ∀ (code : Nat) {body : List Word → State → Reply}, (∀ ps, (body ps s).1.tallied) →
      leadsTo State.tallied (.next (runCommand code body s)) := fun code _ hb => leadsTo_next.mpr (runCommand_tallied h code hb)
  by_cases hi : Part.routes ∈ touches i ∨ Part.records ∈ touches i ∨ Part.je ∈ touches i
  · cases i <;> simp only [touches, List.mem_cons, List.not_mem_nil, or_false, reduceCtorEq, or_self, or_true,
      not_true_eq_false] at hi hdev
    case routeAdd => exact hcommand _ (routeAddWork_tallied h)
    case routeChange => exact hcommand _ (routeChangeWork_tallied h hrs)
    case routeDrop => exact hcommand _ (routeDropWork_tallied h hrs)
    case exitCreate => exact hcommand _ (exitCreateWork_tallied h)
    case exitChange => exact hcommand _ (exitChangeWork_tallied h)
    case exitEnable => exact hcommand _ (exitAdminWork_tallied h true)
    case exitDisable => exact hcommand _ (exitAdminWork_tallied h false)
    case exitDelete => exact hcommand _ (exitDeleteWork_tallied h)
    case setCreate => exact hcommand _ (setCreateWork_tallied h)
    case setChange => exact hcommand _ (setChangeWork_tallied h hpt)
    case setDelete => exact hcommand _ (setDeleteWork_tallied h hpt)
    case memberAdd => exact hcommand _ (memberAddWork_tallied h hpt)
    case memberRemove => exact hcommand _ (memberRemoveWork_tallied h hpt)
    case memberWeight => exact hcommand _ (memberWeightWork_tallied h)
    case setRefill => exact hcommand _ (setRefillWork_tallied h)
    case jobStart => exact hcommand _ (jobStartWork_tallied h)
    case jobCancel => exact hcommand _ (jobCancelWork_tallied h)
    case collect => exact hcommand _ (collectWork_tallied h ha)
    case restart => exact hcommand _ (restartWork_tallied h)
    case visitClaim p => exact execVisitClaim_tallied h p
    case lookupClaim => exact execLookupClaim_tallied h
    case stepClaim => exact execStepClaim_tallied h hrs
    case refillClaim => exact execRefillClaim_tallied h
    case pinClaim n => exact execPinClaim_tallied h n
  · exact exec_tallied_of_untouched h (fun hm => hi (.inl hm)) (fun hm => hi (.inr (.inl hm))) fun hm => hi (.inr (.inr hm))

end

/-! ### Every row, and the step -/

/-- A row that touches the device stops the blocks, leaves them stopped or ends the clearing. -/
theorem exec_talliedRunning_of_dev {s : State} (h : s.talliedRunning) {i : Instr} (hdev : Part.dev ∈ touches i) :
    leadsTo State.talliedRunning (exec i s) := by
  cases i <;> simp only [touches, List.mem_cons, List.not_mem_nil, or_false, reduceCtorEq, or_self, or_true] at hdev
  case hardwareReset ns =>
    refine leadsTo_next.mpr ?_
    split
    · exact fun hr => nomatch hr
    · exact h
  case supplyInvalid rail => exact leadsTo_next.mpr fun hr => nomatch hr
  case resetRelease =>
    exact leadsTo_next.mpr fun hr => State.tallied_congr
      (h (State.startClearing_not_running (s := s.setDev { s.dev with resetLow := false }) hr)) ⟨by simp, by simp, by simp, by simp⟩
  case supplyValid =>
    exact leadsTo_next.mpr fun hr => State.tallied_congr (h (State.startClearing_not_running
      (s := s.setDev { s.dev with vddValid := true, vddioValid := true, vddlValid := true }) hr))
      ⟨by simp, by simp, by simp, by simp⟩
  case startupClearingEnd =>
    refine leadsTo_next.mpr ?_
    split
    · exact fun _ => State.tallied_empty rfl rfl rfl rfl
    · exact h

section
variable {s : State} (hrs : s.rs.lawful) (hpt : s.pt.lawful) (ha : s.attentionLawful) (h : s.talliedRunning)
include hrs hpt ha h

theorem exec_talliedRunning (i : Instr) : leadsTo State.talliedRunning (exec i s) := by
  by_cases hdev : Part.dev ∈ touches i
  · exact exec_talliedRunning_of_dev h hdev
  · intro t ht hr
    have hsame : t.dev = s.dev := exec_same ht (p := .dev) hdev
    exact exec_tallied (h (hsame ▸ hr)) hrs hpt ha hdev t ht

theorem step_talliedRunning {t : State} (hstep : step s = .next t) : t.talliedRunning := by
  unfold step at hstep
  split at hstep
  case h_1 =>
    cases hstep
    exact fun hr => State.tick_tallied (h (by simpa using hr))
  case h_2 c rest _ => exact exec_talliedRunning (s := s.setPending rest) hrs hpt ha h c t hstep

end

/-- Settles O54: the agreement says that every count is the tally of what names its record, and that all that is named is
ACTIVE, and each row moves counts and names together. -/
theorem referencesLawKept : Obligations.ReferencesLawKept := fun s t hrs hpt ha h hstep hr =>
  (State.referencesAgree_iff (bucketMapLawKept s t hpt hstep)).mpr
    (step_talliedRunning hrs hpt ha (fun hrun => (State.referencesAgree_iff hpt).mp (h hrun)) hstep hr)

end Sys2Proof.Machine
end
